-- ==== Sys2Proof/Word.lean ====
section
/-! DEFINITION. The bit vectors of the block: bytes, 32-bit register words, 64-bit frequencies, bus offsets. -/

namespace Sys2Proof

/-- A byte: one element of MODBUF and of the frame window (10_state.md R24, R29). -/
abbrev Byte := BitVec 8

/-- A 32-bit register, command word or binary32 pattern (10_state.md R30, 30_encoding.md R60). -/
abbrev Word := BitVec 32

/-- The 64-bit frequency register's contents (10_state.md R14). -/
abbrev DWord := BitVec 64

/-- A byte offset from BASE. The block decodes 0x000 to 0x3FF, ten bits (20_memory.md R40; log entry 13). -/
abbrev Offset := BitVec 10

end Sys2Proof
end

