-- ==== Sys2Proof/Syntax.lean ====
section
/-! DEFINITION. The abstract syntax: the six commands, the registers of the map, the host's accesses and events,
and the statements of the host-script notation. -/

namespace Sys2Proof

/-- The two units (00_scope.md R1, 60_exceptions.md R152). -/
inductive UnitId where
  | hopper
  | spreader
deriving DecidableEq, Repr

/-- The two command registers a command word is written to (30_encoding.md R60). -/
inductive Port where
  | hopCmd
  | sprCmd
deriving DecidableEq, Repr

/-- The block's instructions: one constructor per row of spec/opcode_table.json (30_encoding.md R64).
All operands but the immediate of STSIG are implicit (R63). -/
inductive Instr where
  /-- LCGNEXT, 40_lcg_frequency.md R80. -/
  | lcgnext
  /-- FRQNEXT, 40_lcg_frequency.md R82. -/
  | frqnext
  /-- TPROG, 41_timer_period.md R91. -/
  | tprog
  /-- STSIG imm, 41_timer_period.md R95; `true` is 1, on. -/
  | stsig (imm : Bool)
  /-- SPSTART, 42_pn_spreader.md R101. -/
  | spstart
  /-- SPPUSH, 42_pn_spreader.md R103. -/
  | sppush
deriving DecidableEq, Repr

/-- The fifteen registers of the register map (10_state.md R30). -/
inductive Reg where
  | hopCmd
  | hopResult
  | hopStat
  | lcgState
  | freqLo
  | freqHi
  | timPsc
  | timArr
  | sprCmd
  | sprResult
  | sprStat
  | sampleIn
  | sprIdx
  | modOut
  | pnBits
deriving DecidableEq, Repr

/-- How wide a host access is: 8, 16 or 32 bits (20_memory.md R42, R43; log entry 14). -/
inductive Width where
  | byte
  | half
  | word
deriving DecidableEq, Repr

/-- One host bus access: `MemRead` and `MemWrite` of 00_scope.md R8, at an offset from BASE. A write narrower than
32 bits carries its value in the low bits; no such write is ever admitted (20_memory.md R42, R43). -/
inductive Access where
  | read (width : Width) (off : Offset)
  | write (width : Width) (off : Offset) (value : Word)
deriving DecidableEq, Repr

/-- What the host can do to the block: a bus access, or drive the reset input (60_exceptions.md R151,
70_reset_and_hazards.md R160); `drive true` asserts reset, `drive false` releases it. -/
inductive HostEvent where
  | access (a : Access)
  | drive (asserted : Bool)
deriving DecidableEq, Repr

/-- The host-script statements (30_encoding.md R69) and pseudo-instructions (R70). -/
inductive HostStmt where
  /-- `WR reg, value`. -/
  | wr (r : Reg) (value : Word)
  /-- `RD reg`. -/
  | rd (r : Reg)
  /-- `RDB FRAME[j]`. -/
  | rdb (j : Nat)
  /-- A command statement. -/
  | command (i : Instr)
  /-- `RESET`. -/
  | reset
  /-- `SETFREQ v`. -/
  | setfreq (v : DWord)
  /-- `PROGRAM v`. -/
  | program (v : DWord)
  /-- `HOP`. -/
  | hop
  /-- `PUSH s`. -/
  | push (sample : Word)
  /-- `SPREAD100 s0, ..., s99`. -/
  | spread100 (samples : List Word)
  /-- `READFRAME`. -/
  | readframe
deriving DecidableEq, Repr

end Sys2Proof
end

