-- ==== Sys2Proof/Config.lean ====
section
/-! DEFINITION. The constants the spec fixes (00_scope.md R6), the parameters it leaves open (R7) as constants with
no body, and the free value (93_implementation_defined.md U1). -/

namespace Sys2Proof

/-- The parameters of one instance of the block that its rules read (00_scope.md R7), fixed when it is built
(70_reset_and_hazards.md R161). PN_SEQ stands in the state as the store PN (10_state.md R20). -/
structure Params where
  /-- SEED: any 32-bit value. -/
  seed : Word
  /-- F_CLK in hertz: 1 to 2^64 - 1. -/
  fClk : Nat
  /-- PSC_BITS: 1 to 32, the spec's choice 16 (log entry 10). -/
  pscBits : Nat
  /-- ARR_BITS: 1 to 32, the spec's choice 16 (log entry 10). -/
  arrBits : Nat
deriving DecidableEq, Repr

namespace Config

/-- PN_LEN. -/
abbrev pnLen : Nat := 11
/-- SIG_LEN. -/
abbrev sigLen : Nat := 100
/-- SAMPLE_BYTES. -/
abbrev sampleBytes : Nat := 4
/-- SYNC_BYTE. -/
abbrev syncByte : Byte := 0xAA#8
/-- ACK_BYTE, host side. -/
abbrev ackByte : Byte := 0x55#8
/-- FRAME_LEN. -/
abbrev frameLen : Nat := 1 + sigLen * sampleBytes
/-- LCG_A. -/
abbrev lcgA : Nat := 48271
/-- LCG_M = 2^31 - 1. -/
abbrev lcgM : Nat := 2147483647
/-- F_LO in hertz. -/
abbrev fLo : Nat := 300000000
/-- F_TOP in hertz. -/
abbrev fTop : Nat := 5800000000
/-- RANGE_WIDTH. -/
abbrev rangeWidth : Nat := fTop - fLo
/-- F_HI in hertz. -/
abbrev fHi : Nat := 5799999999

/-- PN_SEQ, chip `i` in bit `i`: OPEN, any of the 2048 sequences (U2; log entry 6). -/
opaque pnSeq : BitVec 11

/-- SEED: OPEN, any 32-bit value (U3; log entry 6). -/
opaque seed : Word

/-- F_CLK less one, so that F_CLK is any of 1 to 2^64 - 1 (U4; log entry 6). -/
opaque fClkLess1 : Fin 18446744073709551615

/-- PSC_BITS less one, so that PSC_BITS is any of 1 to 32 (U5; log entry 10). -/
opaque pscBitsLess1 : Fin 32

/-- ARR_BITS less one, so that ARR_BITS is any of 1 to 32 (U5; log entry 10). -/
opaque arrBitsLess1 : Fin 32

/-- BASE divided by 0x400: OPEN (U8; log entry 13). -/
opaque baseIndex : Nat

/-- The sign (bit 22) and payload (bits 21:0) of the `n`-th NaN product: a draw (42_pn_spreader.md R106, U1; log
entry 7). -/
opaque nanDraw : Nat → BitVec 23

/-- RETRY_CEILING, host side: OPEN (U13; log entry 16). -/
opaque retryCeiling : Nat

/-- HOP_REPORT_BYTES, host side: OPEN, 8 where true and 4 where false (U12; log entry 16). -/
opaque wideHopReport : Bool

/-- The parameters of the instance whose state after reset is `State.reset`. -/
def params : Params where
  seed := seed
  fClk := fClkLess1.val + 1
  pscBits := pscBitsLess1.val + 1
  arrBits := arrBitsLess1.val + 1

/-- BASE: a multiple of 0x400 (20_memory.md R53). -/
def base : Nat := 0x400 * baseIndex

/-- HOP_REPORT_BYTES (43_host_sequences.md R123). -/
def hopReportBytes : Nat := if wideHopReport then 8 else 4

end Config

end Sys2Proof
end

