-- ==== Sys2Proof/WellFormed.lean ====
section
/-! DEFINITION. Which terms are well-formed: instructions, host-script statements and parameters. -/

namespace Sys2Proof

/-- Every term of `Instr` is well-formed: the one operand a word carries is the one bit IMM, and a `Bool` holds just
that (30_encoding.md R63). -/
def Instr.wf : Instr → Bool
  | .lcgnext => true
  | .frqnext => true
  | .tprog => true
  | .stsig _ => true
  | .spstart => true
  | .sppush => true

/-- `RDB FRAME[j]` names j = 0..400 and SPREAD100 has exactly 100 samples (30_encoding.md R69, R70). -/
def HostStmt.wf : HostStmt → Bool
  | .rdb j => decide (j < Config.frameLen)
  | .spread100 samples => decide (samples.length = Config.sigLen)
  | .command i => i.wf
  | .wr _ _ => true
  | .rd _ => true
  | .reset => true
  | .setfreq _ => true
  | .program _ => true
  | .hop => true
  | .push _ => true
  | .readframe => true

/-- The ranges of F_CLK, PSC_BITS and ARR_BITS (00_scope.md R7). -/
def Params.wf (p : Params) : Bool :=
  decide (1 ≤ p.fClk) && decide (p.fClk < 2 ^ 64) &&
    decide (1 ≤ p.pscBits) && decide (p.pscBits ≤ 32) &&
    decide (1 ≤ p.arrBits) && decide (p.arrBits ≤ 32)

end Sys2Proof
end

