-- ==== Sys2Proof/Decode.lean ====
section
/-! DEFINITION. The decoder of command words (30_encoding.md R60 to R66) and, after it, the encoder. -/

namespace Sys2Proof

/-- Why a (port, word) pair is illegal (30_encoding.md R62, R66). -/
inductive DecodeError where
  /-- A bit of 31:9 is set. -/
  | highBits
  /-- UNIT is not the unit of the port. -/
  | wrongUnit
  /-- FN names no function of the unit. -/
  | undefinedFunction
  /-- Bit 8 is set in a word of format Z. -/
  | immediateSet
deriving DecidableEq, Repr

/-- The unit that owns a port (30_encoding.md R60). -/
def Port.unit : Port → UnitId
  | .hopCmd => .hopper
  | .sprCmd => .spreader

/-- The UNIT field's value for a unit (30_encoding.md R61). -/
def UnitId.code : UnitId → BitVec 4
  | .hopper => 0x1#4
  | .spreader => 0x2#4

/-- A 32-bit word with the field `v` placed from bit `lo` on and zeros elsewhere (00_scope.md R8). -/
def fieldAt {n : Nat} (v : BitVec n) (lo : Nat) : Word := v.setWidth 32 <<< lo

/-- FN, bits 3:0 (30_encoding.md R61). -/
def fieldFn (w : Word) : BitVec 4 := w.extractLsb' 0 4

/-- UNIT, bits 7:4 (30_encoding.md R61). -/
def fieldUnit (w : Word) : BitVec 4 := w.extractLsb' 4 4

/-- IMM, bit 8 (30_encoding.md R61, R63). -/
def fieldImm (w : Word) : Bool := w.getLsbD 8

/-- Bits 31:9, which every legal word has 0 (30_encoding.md R62). -/
def fieldHigh (w : Word) : BitVec 23 := w.extractLsb' 9 23

/-- A format-Z command: legal where IMM is 0 (30_encoding.md R61, R62). -/
def formatZ (imm : Bool) (i : Instr) : Except DecodeError Instr :=
  if imm then .error .immediateSet else .ok i

/-- The Hopper unit's functions (30_encoding.md R62). -/
def decodeHopper (fn : BitVec 4) (imm : Bool) : Except DecodeError Instr :=
  if fn = 0x1#4 then formatZ imm .lcgnext
  else if fn = 0x2#4 then formatZ imm .frqnext
  else if fn = 0x3#4 then formatZ imm .tprog
  else if fn = 0x4#4 then .ok (.stsig imm)
  else .error .undefinedFunction

/-- The Spreader unit's functions (30_encoding.md R62). -/
def decodeSpreader (fn : BitVec 4) (imm : Bool) : Except DecodeError Instr :=
  if fn = 0x1#4 then formatZ imm .spstart
  else if fn = 0x2#4 then formatZ imm .sppush
  else .error .undefinedFunction

/-- Decoding of a write of word `w` to port `p`, check by check as 30_encoding.md R62 lists them. It reads no state. -/
def decode (p : Port) (w : Word) : Except DecodeError Instr :=
  if fieldHigh w ≠ 0#23 then .error .highBits
  else if fieldUnit w ≠ p.unit.code then .error .wrongUnit
  else
    match p with
    | .hopCmd => decodeHopper (fieldFn w) (fieldImm w)
    | .sprCmd => decodeSpreader (fieldFn w) (fieldImm w)

/-- The command word whose four bytes lie, lowest address first, on a byte-lane bus (20_memory.md R41(b)). -/
def wordOfBytes (b0 b1 b2 b3 : Byte) : Word :=
  fieldAt b0 0 ||| fieldAt b1 8 ||| fieldAt b2 16 ||| fieldAt b3 24

/-- Decoding from bytes on a port: four bytes make a word; any other number of them is no command, since every
command is 32 bits (30_encoding.md R60, R67). -/
def decodeBytes (p : Port) : List Byte → Option Instr
  | [b0, b1, b2, b3] => (decode p (wordOfBytes b0 b1 b2 b3)).toOption
  | _ => none

/-- The port a table word is written to: its UNIT field names the unit, and a Spreader opcode goes to SPR_CMD, every
other word to HOP_CMD (30_encoding.md R61, R64; log entry 3). -/
def tablePort (w : Word) : Port :=
  if fieldUnit w = UnitId.spreader.code then .sprCmd else .hopCmd

/-- The word of a table row whose `nbits` bits are `w`; every bit above `nbits` is 0. -/
def tableWord (nbits w : Nat) : Word := BitVec.ofNat 32 (w % 2 ^ nbits)

/-- The instruction the decoder reads from a table row's bits, laid out as four bytes, least significant first. -/
def decodeTableWord (nbits w : Nat) : Option Instr :=
  let v := tableWord nbits w
  decodeBytes (tablePort v) [v.extractLsb' 0 8, v.extractLsb' 8 8, v.extractLsb' 16 8, v.extractLsb' 24 8]

/-- The port of an instruction (30_encoding.md R64). -/
def Instr.port : Instr → Port
  | .lcgnext => .hopCmd
  | .frqnext => .hopCmd
  | .tprog => .hopCmd
  | .stsig _ => .hopCmd
  | .spstart => .sprCmd
  | .sppush => .sprCmd

/-- The word of a format-Z command (30_encoding.md R61). -/
def encodeZ (u : UnitId) (fn : BitVec 4) : Word := fieldAt fn 0 ||| fieldAt u.code 4

/-- The word of a format-I command (30_encoding.md R61). -/
def encodeI (u : UnitId) (fn : BitVec 4) (imm : Bool) : Word :=
  fieldAt fn 0 ||| fieldAt u.code 4 ||| fieldAt (BitVec.ofBool imm) 8

/-- The encoder: the command word of an instruction (30_encoding.md R61, R64). -/
def encode : Instr → Word
  | .lcgnext => encodeZ .hopper 0x1#4
  | .frqnext => encodeZ .hopper 0x2#4
  | .tprog => encodeZ .hopper 0x3#4
  | .stsig imm => encodeI .hopper 0x4#4 imm
  | .spstart => encodeZ .spreader 0x1#4
  | .sppush => encodeZ .spreader 0x2#4

end Sys2Proof
end

