-- ==== Sys2Proof/Machine/State.lean ====
section
/-! DEFINITION. The machine's state, its faults and refusals, and the state after reset. -/

namespace Sys2Proof.Machine

/-- The result codes (60_exceptions.md R140); codes 0x05 to 0xFF are never written. -/
inductive ResultCode where
  | ok
  | illegal
  | unachHigh
  | unachLow
  | full
deriving DecidableEq, Repr

/-- The errors a command can raise, with their unit (60_exceptions.md R140, R141). Only a pair the spec pairs with a
sticky flag exists. -/
inductive BlockError where
  /-- E_ILLEGAL on the unit of the port. -/
  | illegal (u : UnitId)
  /-- E_UNACH_HIGH, Hopper. -/
  | unachHigh
  /-- E_UNACH_LOW, Hopper. -/
  | unachLow
  /-- E_FULL, Spreader. -/
  | full
deriving DecidableEq, Repr

/-- What the block answered on the bus to the host event taken last (20_memory.md R44, R54). -/
inductive Response where
  /-- No access has been answered since reset. -/
  | noAccess
  /-- A write was admitted and is complete. -/
  | done
  /-- A register read returned this value. -/
  | word (v : Word)
  /-- A frame-window read returned this byte. -/
  | byte (b : Byte)
deriving DecidableEq, Repr

/-- Which clause of 20_memory.md R44 keeps an access from being admitted. The spec gives BusError alone; the cause is
the model's (log entry 5). -/
inductive BusErrorCause where
  /-- R44(f), 70_reset_and_hazards.md R160: reset is asserted. -/
  | inReset
  /-- R44(a): an unmapped offset. -/
  | unmapped
  /-- R44(b): a register-space access that is not 32 bits wide or not aligned. -/
  | registerWidth
  /-- R44(c): a frame-window access that is not an 8-bit read. -/
  | frameAccess
  /-- R44(d): a write to a read-only register. -/
  | writeReadOnly
  /-- R44(e): a read of a write-only register. -/
  | readWriteOnly
deriving DecidableEq, Repr

/-- Why a step stops with a fault. -/
inductive Fault where
  /-- BusError: raised by `step` for a host access that 20_memory.md R44 does not admit. The block's state is unchanged
  and the host's run has gone wrong (93_implementation_defined.md U9). SAFE: the hardware also takes no step; what the
  host does next is outside the spec (log entry 4). -/
  | busError (cause : BusErrorCause)
deriving DecidableEq, Repr

/-- Why a step has no meaning. -/
inductive Refusal where
  /-- Raised by `exec` for an instruction that has no meaning yet; no arm of `exec` raises it. SAFE. -/
  | notModelled (mnemonic : String)
deriving DecidableEq, Repr

/-- A byte store: the bytes that differ from 0x00, addresses strictly rising. An unlisted byte reads 0x00, which is
the reset value of every byte of MODBUF (10_state.md R24, R34). -/
abbrev Memory := List Host.Cell

/-- The state of the block, and beside it the model's own fields (INVENTORY.md). -/
structure State where
  /-- LCG, 32 bits (10_state.md R13). -/
  lcg : Word
  /-- FREQ, 64 bits (R14). -/
  freq : DWord
  /-- TIM_PSC, PSC_BITS bits as the 32-bit register reads (R15). -/
  timPsc : Word
  /-- TIM_ARR, ARR_BITS bits as the 32-bit register reads (R15). -/
  timArr : Word
  /-- OUT_EN (R15). -/
  outEn : Bool
  /-- STATUS_SIG (R16). -/
  statusSig : Bool
  /-- HOP_RESULT.CODE (R17). -/
  hopCode : ResultCode
  /-- HOP_F_ILL (R18). -/
  hopFIll : Bool
  /-- HOP_F_UNACH (R18). -/
  hopFUnach : Bool
  /-- PN[0..10], chip `i` in bit `i`, read-only (R20). -/
  pn : BitVec 11
  /-- SAMPLE_IN, 32 bits (R21). -/
  sampleIn : Word
  /-- IDX, 7 bits, range 0 to 100 (R22). -/
  idx : Fin 101
  /-- MOD_OUT, 32 bits (R23). -/
  modOut : Word
  /-- MODBUF[0..399] (R24). -/
  modbuf : Memory
  /-- SPR_RESULT.CODE (R25). -/
  sprCode : ResultCode
  /-- SPR_F_ILL (R26). -/
  sprFIll : Bool
  /-- SPR_F_FULL (R26). -/
  sprFFull : Bool
  /-- The parameters of the instance, constant (00_scope.md R7, 70_reset_and_hazards.md R161; log entry 6). -/
  params : Params
  /-- The level of the reset input: true while reset is asserted (70_reset_and_hazards.md R160; log entry 12). -/
  resetLine : Bool
  /-- The host events still to be taken, first first (20_memory.md R48; log entry 1). -/
  pending : List HostEvent
  /-- The block's answer to the host event taken last (log entry 15). -/
  response : Response
  /-- How many free values have been drawn (log entry 8). -/
  draws : Nat
deriving DecidableEq, Repr

/-- The machine right after reset (10_state.md R34, 70_reset_and_hazards.md R160), with no host event pending. -/
def State.reset : State where
  lcg := Config.params.seed
  freq := 0#64
  timPsc := 0#32
  timArr := 0#32
  outEn := false
  statusSig := false
  hopCode := .ok
  hopFIll := false
  hopFUnach := false
  pn := Config.pnSeq
  sampleIn := 0#32
  idx := 0
  modOut := 0#32
  modbuf := []
  sprCode := .ok
  sprFIll := false
  sprFFull := false
  params := Config.params
  resetLine := false
  pending := []
  response := .noAccess
  draws := 0

end Sys2Proof.Machine
end

