-- ==== Sys2Proof/Machine/Ops.lean ====
section
/-! DEFINITION. The named operations over the state: register updates, the byte store, serialisation, raising an
error, and reset. -/

namespace Sys2Proof.Machine

/-- `LCG <- v`. -/
def State.setLcg (s : State) (v : Word) : State := { s with lcg := v }

/-- `FREQ <- v`. -/
def State.setFreq (s : State) (v : DWord) : State := { s with freq := v }

/-- `TIM_PSC <- psc`, `TIM_ARR <- arr`, `OUT_EN <- 1`: what a successful TPROG writes (41_timer_period.md R91). -/
def State.setTimer (s : State) (psc arr : Word) : State := { s with timPsc := psc, timArr := arr, outEn := true }

/-- `STATUS_SIG <- b`. -/
def State.setStatusSig (s : State) (b : Bool) : State := { s with statusSig := b }

/-- `HOP_RESULT.CODE <- c`. -/
def State.setHopCode (s : State) (c : ResultCode) : State := { s with hopCode := c }

/-- `HOP_F_ILL <- b`. -/
def State.setHopFIll (s : State) (b : Bool) : State := { s with hopFIll := b }

/-- `HOP_F_UNACH <- b`. -/
def State.setHopFUnach (s : State) (b : Bool) : State := { s with hopFUnach := b }

/-- `SAMPLE_IN <- v`. -/
def State.setSampleIn (s : State) (v : Word) : State := { s with sampleIn := v }

/-- `IDX <- i`. -/
def State.setIdx (s : State) (i : Fin 101) : State := { s with idx := i }

/-- `MOD_OUT <- v`. -/
def State.setModOut (s : State) (v : Word) : State := { s with modOut := v }

/-- MODBUF becomes `m`. -/
def State.setModbuf (s : State) (m : Memory) : State := { s with modbuf := m }

/-- `SPR_RESULT.CODE <- c`. -/
def State.setSprCode (s : State) (c : ResultCode) : State := { s with sprCode := c }

/-- `SPR_F_ILL <- b`. -/
def State.setSprFIll (s : State) (b : Bool) : State := { s with sprFIll := b }

/-- `SPR_F_FULL <- b`. -/
def State.setSprFFull (s : State) (b : Bool) : State := { s with sprFFull := b }

/-- The level of the reset input. -/
def State.setResetLine (s : State) (b : Bool) : State := { s with resetLine := b }

/-- The host events still to be taken. -/
def State.setPending (s : State) (es : List HostEvent) : State := { s with pending := es }

/-- The block's answer on the bus. -/
def State.setResponse (s : State) (r : Response) : State := { s with response := r }

/-- The count of free values drawn. -/
def State.setDraws (s : State) (n : Nat) : State := { s with draws := n }

/-- `RESULT.CODE <- c` of a unit (60_exceptions.md R140: HOP_CMD commands write only HOP_RESULT, SPR_CMD commands only
SPR_RESULT). -/
def State.setCode (s : State) (u : UnitId) (c : ResultCode) : State :=
  match u with
  | .hopper => s.setHopCode c
  | .spreader => s.setSprCode c

/-! ### The byte store -/

/-- The byte at an address; an unlisted address reads 0x00. -/
def Memory.read : Memory → Nat → Byte
  | [], _ => 0x00#8
  | (a, v) :: rest, x => if a = x then v else Memory.read rest x

/-- Store one byte, keeping the canonical form: storing 0x00 removes the entry. -/
def Memory.write : Memory → Nat → Byte → Memory
  | [], x, b => if b = 0x00#8 then [] else [(x, b)]
  | (a, v) :: rest, x, b =>
    if x < a then (if b = 0x00#8 then (a, v) :: rest else (x, b) :: (a, v) :: rest)
    else if x = a then (if b = 0x00#8 then rest else (x, b) :: rest)
    else (a, v) :: Memory.write rest x b

/-- The canonical form from address `lo` on: addresses strictly rising, at least `lo` and below 400, no entry 0x00. -/
def Memory.wfFrom (lo : Nat) : Memory → Bool
  | [] => true
  | (a, v) :: rest => decide (lo ≤ a) && decide (a < 400) && decide (v ≠ 0x00#8) && Memory.wfFrom (a + 1) rest

/-- The canonical form of MODBUF, 400 bytes (10_state.md R24). -/
def Memory.wf (m : Memory) : Bool := Memory.wfFrom 0 m

/-- Byte `k` of a 32-bit value, least significant first: `m[8k+7:8k]` (20_memory.md R41). -/
def wordByte (m : Word) (k : Nat) : Byte := m.extractLsb' (8 * k) 8

/-- Serialise sample `i`: its four bytes at `4i` to `4i + 3`, least significant first (42_pn_spreader.md R104). -/
def Memory.storeSample (mem : Memory) (i : Nat) (m : Word) : Memory :=
  Memory.write (Memory.write (Memory.write (Memory.write mem
    (4 * i) (wordByte m 0)) (4 * i + 1) (wordByte m 1)) (4 * i + 2) (wordByte m 2)) (4 * i + 3) (wordByte m 3)

/-- `MODBUF[j]`. -/
def State.modByte (s : State) (j : Nat) : Byte := Memory.read s.modbuf j

/-- `FRAME[j]`: the sync byte, then MODBUF (10_state.md R29). -/
def State.frameByte (s : State) (j : Nat) : Byte :=
  if j = 0 then Config.syncByte else s.modByte (j - 1)

/-! ### Raising an error: the block's whole exception entry (60_exceptions.md R141, R145) -/

/-- The code an error writes (60_exceptions.md R140). -/
def BlockError.code : BlockError → ResultCode
  | .illegal _ => .illegal
  | .unachHigh => .unachHigh
  | .unachLow => .unachLow
  | .full => .full

/-- The unit whose RESULT an error writes (60_exceptions.md R140). -/
def BlockError.unit : BlockError → UnitId
  | .illegal u => u
  | .unachHigh => .hopper
  | .unachLow => .hopper
  | .full => .spreader

/-- Set the sticky flag paired with an error (60_exceptions.md R141). -/
def State.setSticky (s : State) (e : BlockError) : State :=
  match e with
  | .illegal .hopper => s.setHopFIll true
  | .illegal .spreader => s.setSprFIll true
  | .unachHigh => s.setHopFUnach true
  | .unachLow => s.setHopFUnach true
  | .full => s.setSprFFull true

/-- `raise <Code>(unit)`: exactly two writes, the unit's RESULT.CODE and the paired sticky flag; no control is
transferred and nothing is saved (60_exceptions.md R141, R145). There is no return from it and nothing to restore: the
unit takes the next command as usual (R146). -/
def raise (e : BlockError) (s : State) : State := (s.setCode e.unit e.code).setSticky e

/-! ### Reset (70_reset_and_hazards.md R160) -/

/-- Every piece of the block's state at its value of 10_state.md R34. PN is constant; the parameters, the events still
pending and the count of draws are none of the block's to reset (log entries 6, 8, 12). -/
def applyReset (s : State) : State :=
  { State.reset with
    lcg := s.params.seed
    pn := s.pn
    params := s.params
    resetLine := s.resetLine
    pending := s.pending
    draws := s.draws }

/-- The host drives the reset input. Asserting it puts the block in its reset state, releasing it leaves the block
there, and releasing an input that is not asserted changes nothing (70_reset_and_hazards.md R160; log entry 12). -/
def driveReset (asserted : Bool) (s : State) : State :=
  if asserted then (applyReset s).setResetLine true
  else if s.resetLine then (applyReset s).setResetLine false
  else s

end Sys2Proof.Machine
end

