-- ==== Sys2Proof/Machine/Operands.lean ====
section
/-! DEFINITION. The operands of the commands and the arithmetic on them: the LCG step and the range map, PeriodMap,
the chip of a push, the binary32 product. -/

namespace Sys2Proof.Machine

/-! ### LCG and frequency (40_lcg_frequency.md) -/

/-- One LCG step in exact integer arithmetic (40_lcg_frequency.md R80, R81). -/
def lcgStep (x : Word) : Word := BitVec.ofNat 32 (Config.lcgA * x.toNat % Config.lcgM)

/-- The range map of FRQNEXT (40_lcg_frequency.md R82, R83). -/
def rangeMap (raw : Word) : DWord := BitVec.ofNat 64 (Config.fLo + raw.toNat % Config.rangeWidth)

/-! ### Timer (41_timer_period.md) -/

/-- What PeriodMap answers. -/
inductive PeriodResult where
  /-- The divider and the period. -/
  | pair (psc arr : Nat)
  /-- The frequency is unachievable, with the error TPROG raises. -/
  | unachievable (e : BlockError)
deriving DecidableEq, Repr

/-- PeriodMap, its checks in the order the spec writes them (41_timer_period.md R91; log entry 9). -/
def periodMap (p : Params) (f : Nat) : PeriodResult :=
  if f = 0 then .unachievable .unachLow
  else
    let ticks := p.fClk / f
    if ticks = 0 then .unachievable .unachHigh
    else
      let psc := (ticks - 1) / 2 ^ p.arrBits
      if 2 ^ p.pscBits ≤ psc then .unachievable .unachLow
      else .pair psc (ticks / (psc + 1) - 1)

/-! ### FREQ as two 32-bit halves (10_state.md R14) -/

/-- `FREQ[31:0]`. -/
def freqLow (f : DWord) : Word := f.extractLsb' 0 32

/-- `FREQ[63:32]`. -/
def freqHigh (f : DWord) : Word := f.extractLsb' 32 32

/-- A host write of FREQ_LO leaves the high half. -/
def withFreqLow (f : DWord) (v : Word) : DWord := v.setWidth 64 ||| (freqHigh f).setWidth 64 <<< 32

/-- A host write of FREQ_HI leaves the low half. -/
def withFreqHigh (f : DWord) (v : Word) : DWord := (freqLow f).setWidth 64 ||| v.setWidth 64 <<< 32

/-! ### Chips and samples (42_pn_spreader.md) -/

/-- The chip a push at index `i` uses: `PN[i mod 11]` (42_pn_spreader.md R102). -/
def chipAt (pn : BitVec 11) (i : Nat) : Bool := pn.getLsbD (i % Config.pnLen)

/-- A chip as binary32: 1.0 or +0.0 (42_pn_spreader.md R102). -/
def chipFloat (c : Bool) : Word := if c then 0x3F800000#32 else 0x00000000#32

/-- The sign `s` of a binary32 pattern, bit 31 (42_pn_spreader.md R105). -/
def floatSign (a : Word) : Bool := a.getLsbD 31

/-- The exponent field `e`, bits 30:23. -/
def floatExp (a : Word) : BitVec 8 := a.extractLsb' 23 8

/-- The fraction field `t`, bits 22:0. -/
def floatFrac (a : Word) : BitVec 23 := a.extractLsb' 0 23

/-- The classes of a binary32 pattern that the product tells apart (42_pn_spreader.md R105). -/
inductive FloatClass where
  | finite
  | infinity
  | nan
deriving DecidableEq, Repr

/-- The class of a pattern (42_pn_spreader.md R105). -/
def classify (a : Word) : FloatClass :=
  if floatExp a = 0xFF#8 then (if floatFrac a = 0#23 then .infinity else .nan) else .finite

/-- A quiet NaN with the sign and payload `d`: bits 30:22 all 1 (42_pn_spreader.md R106). -/
def quietNaN (d : BitVec 23) : Word :=
  fieldAt (d.extractLsb' 0 22) 0 ||| fieldAt (BitVec.allOnes 9) 22 ||| fieldAt (d.extractLsb' 22 1) 31

/-- Whether the product by a chip is a NaN, whose sign and payload are a draw (42_pn_spreader.md R105, R106). -/
def productIsNaN (a : Word) (c : Bool) : Bool :=
  match classify a with
  | .nan => true
  | .infinity => !c
  | .finite => false

/-- The zero with the sign of `a`: `a AND 0x80000000` (42_pn_spreader.md R105). -/
def signedZero (a : Word) : Word := a &&& 0x80000000#32

/-- The binary32 product of a sample and a chip (`chipFloat`), row by row of the table of 42_pn_spreader.md R105; `d`
is the sign and payload of a NaN product. -/
def fmul32 (a : Word) (c : Bool) (d : BitVec 23) : Word :=
  if productIsNaN a c then quietNaN d
  else if c then a
  else signedZero a

/-- The NaN bits a deterministic model may use (42_pn_spreader.md R106). The machine does not use them: the NaN bits
are a draw (log entry 7). -/
def defaultNaNResult (a : Word) : Word :=
  if classify a = .nan then a ||| 0x00400000#32 else 0x7FC00000#32

end Sys2Proof.Machine
end

