-- ==== Sys2Proof/Machine/Flags.lean ====
section
/-! DEFINITION. The flags and the words the host reads them in: FRAME_RDY, the result codes and the status registers.
The block has no condition codes and no arithmetic flags (10_state.md R32). -/

namespace Sys2Proof.Machine

/-- The byte of a result code (60_exceptions.md R140). -/
def ResultCode.bits : ResultCode → Byte
  | .ok => 0x00#8
  | .illegal => 0x01#8
  | .unachHigh => 0x02#8
  | .unachLow => 0x03#8
  | .full => 0x04#8

/-- The result code a byte stands for; codes 0x05 to 0xFF stand for none (60_exceptions.md R140). -/
def ResultCode.ofBits (b : Byte) : Option ResultCode :=
  [ResultCode.ok, .illegal, .unachHigh, .unachLow, .full].find? fun c => c.bits == b

/-- A RESULT register: CODE in bits 7:0, zeros above (10_state.md R17, R25). -/
def resultWord (c : ResultCode) : Word := fieldAt c.bits 0

/-- FRAME_RDY: 1 exactly when IDX = 100 (10_state.md R26). -/
def State.frameReady (s : State) : Bool := decide (s.idx.val = Config.sigLen)

/-- HOP_STAT (10_state.md R18). -/
def hopStatWord (s : State) : Word :=
  fieldAt (BitVec.ofBool s.outEn) 0 ||| fieldAt (BitVec.ofBool s.statusSig) 1 |||
    fieldAt (BitVec.ofBool s.hopFIll) 8 ||| fieldAt (BitVec.ofBool s.hopFUnach) 9

/-- SPR_STAT (10_state.md R26). -/
def sprStatWord (s : State) : Word :=
  fieldAt (BitVec.ofBool s.frameReady) 0 ||| fieldAt (BitVec.ofBool s.sprFIll) 8 |||
    fieldAt (BitVec.ofBool s.sprFFull) 9

/-- SPR_IDX: IDX in bits 6:0, zeros above (10_state.md R22). -/
def sprIdxWord (s : State) : Word := BitVec.ofNat 32 s.idx.val

/-- PN_BITS: chip `i` in bit `i`, zeros above (10_state.md R28). -/
def pnBitsWord (s : State) : Word := fieldAt s.pn 0

end Sys2Proof.Machine
end

