-- ==== Sys2Proof/Machine/Bus.lean ====
section
/-! DEFINITION. The host's side of the block: the register map, bus admission, register and frame-window reads, and
operand writes (10_state.md R30, 20_memory.md). -/

namespace Sys2Proof.Machine

/-- The offset of a register (10_state.md R30). -/
def regOffset : Reg → Offset
  | .hopCmd => 0x00#10
  | .hopResult => 0x04#10
  | .hopStat => 0x08#10
  | .lcgState => 0x0C#10
  | .freqLo => 0x10#10
  | .freqHi => 0x14#10
  | .timPsc => 0x18#10
  | .timArr => 0x1C#10
  | .sprCmd => 0x40#10
  | .sprResult => 0x44#10
  | .sprStat => 0x48#10
  | .sampleIn => 0x4C#10
  | .sprIdx => 0x50#10
  | .modOut => 0x54#10
  | .pnBits => 0x58#10

/-- The register at a byte offset (10_state.md R30); none where no register has that offset. -/
def regAt : Nat → Option Reg
  | 0x00 => some .hopCmd
  | 0x04 => some .hopResult
  | 0x08 => some .hopStat
  | 0x0C => some .lcgState
  | 0x10 => some .freqLo
  | 0x14 => some .freqHi
  | 0x18 => some .timPsc
  | 0x1C => some .timArr
  | 0x40 => some .sprCmd
  | 0x44 => some .sprResult
  | 0x48 => some .sprStat
  | 0x4C => some .sampleIn
  | 0x50 => some .sprIdx
  | 0x54 => some .modOut
  | 0x58 => some .pnBits
  | _ => none

/-- The command register of a port as an offset (30_encoding.md R60). -/
def portOffset : Port → Offset
  | .hopCmd => regOffset .hopCmd
  | .sprCmd => regOffset .sprCmd

/-- What lies at an offset (20_memory.md R40). -/
inductive Region where
  /-- Register space, an aligned offset. -/
  | register (r : Reg)
  /-- Register space, an offset that is not a multiple of 4. -/
  | misaligned
  /-- The frame window, byte `j`. -/
  | frame (j : Nat)
  /-- No register and no frame byte. -/
  | unmapped
deriving DecidableEq, Repr

/-- The map of the block's 0x400 bytes (20_memory.md R40, R44(a)). -/
def regionAt (off : Offset) : Region :=
  let n := off.toNat
  if n < 0x20 ∨ (0x40 ≤ n ∧ n < 0x5C) then
    match regAt n with
    | some r => .register r
    | none => .misaligned
  else if 0x200 ≤ n ∧ n ≤ 0x390 then .frame (n - 0x200)
  else .unmapped

/-- What an admitted access does. -/
inductive BusAction where
  /-- Read a register. -/
  | readReg (r : Reg)
  /-- Read byte `j` of the frame window. -/
  | readFrame (j : Nat)
  /-- Write FREQ_LO, FREQ_HI or SAMPLE_IN, the operand registers the host may write (10_state.md R11). -/
  | writeFreqLo (v : Word)
  | writeFreqHi (v : Word)
  | writeSampleIn (v : Word)
  /-- Write a word to a command register: execute a command. -/
  | command (p : Port) (w : Word)
deriving DecidableEq, Repr

/-- Admission of a 32-bit read of a register (10_state.md R30, 20_memory.md R44(e)). -/
def admitRead (r : Reg) : Except BusErrorCause BusAction :=
  match r with
  | .hopCmd => .error .readWriteOnly
  | .sprCmd => .error .readWriteOnly
  | r => .ok (.readReg r)

/-- Admission of a 32-bit write of a register (10_state.md R30, 20_memory.md R44(d)). -/
def admitWrite (r : Reg) (v : Word) : Except BusErrorCause BusAction :=
  match r with
  | .hopCmd => .ok (.command .hopCmd v)
  | .sprCmd => .ok (.command .sprCmd v)
  | .freqLo => .ok (.writeFreqLo v)
  | .freqHi => .ok (.writeFreqHi v)
  | .sampleIn => .ok (.writeSampleIn v)
  | _ => .error .writeReadOnly

/-- Bus admission while reset is released (20_memory.md R42, R43, R44(a) to (e)). -/
def admitReleased : Access → Except BusErrorCause BusAction
  | .read width off =>
    match regionAt off with
    | .unmapped => .error .unmapped
    | .misaligned => .error .registerWidth
    | .frame j => if width = .byte then .ok (.readFrame j) else .error .frameAccess
    | .register r => if width = .word then admitRead r else .error .registerWidth
  | .write width off v =>
    match regionAt off with
    | .unmapped => .error .unmapped
    | .misaligned => .error .registerWidth
    | .frame _ => .error .frameAccess
    | .register r => if width = .word then admitWrite r v else .error .registerWidth

/-- Bus admission (20_memory.md R44): nothing is admitted while reset is asserted (R44(f)). -/
def admission (inReset : Bool) (a : Access) : Except BusErrorCause BusAction :=
  if inReset then .error .inReset else admitReleased a

/-- The value of a register as the host reads it (10_state.md R30, R31). A command register holds no state and is never
read: admission refuses it (R19, R27). -/
def readReg (r : Reg) (s : State) : Word :=
  match r with
  | .hopCmd => 0#32
  | .hopResult => resultWord s.hopCode
  | .hopStat => hopStatWord s
  | .lcgState => s.lcg
  | .freqLo => freqLow s.freq
  | .freqHi => freqHigh s.freq
  | .timPsc => s.timPsc
  | .timArr => s.timArr
  | .sprCmd => 0#32
  | .sprResult => resultWord s.sprCode
  | .sprStat => sprStatWord s
  | .sampleIn => s.sampleIn
  | .sprIdx => sprIdxWord s
  | .modOut => s.modOut
  | .pnBits => pnBitsWord s

/-- The address of an offset in the host's address space (20_memory.md R53, R54; log entry 13). -/
def hostAddress (off : Offset) : Nat := Config.base + off.toNat

/-- The offset of a host address, where it lies in the block's 0x400 bytes (20_memory.md R40, R53). -/
def blockOffset (addr : Nat) : Option Offset :=
  if Config.base ≤ addr ∧ addr < Config.base + 0x400 then some (BitVec.ofNat 10 (addr - Config.base)) else none

end Sys2Proof.Machine
end

