-- ==== Sys2Proof/Machine/Frequency.lean ====
section
/-! DEFINITION. The meanings of LCGNEXT and FRQNEXT (40_lcg_frequency.md). -/

namespace Sys2Proof.Machine

/-- LCGNEXT (40_lcg_frequency.md R80): always succeeds. -/
def execLcgnext (s : State) : Host.Outcome State Fault Refusal :=
  .next ((s.setLcg (lcgStep s.lcg)).setCode .hopper .ok)

/-- FRQNEXT (40_lcg_frequency.md R82): the same step, then the range map; always succeeds. -/
def execFrqnext (s : State) : Host.Outcome State Fault Refusal :=
  let raw := lcgStep s.lcg
  .next (((s.setLcg raw).setFreq (rangeMap raw)).setCode .hopper .ok)

end Sys2Proof.Machine
end

