-- ==== Sys2Proof/Machine/Spreader.lean ====
section
/-! DEFINITION. The meanings of SPSTART and SPPUSH (42_pn_spreader.md). -/

namespace Sys2Proof.Machine

/-- SPSTART (42_pn_spreader.md R101): IDX <- 0 and nothing else but the result code; always succeeds. -/
def execSpstart (s : State) : Host.Outcome State Fault Refusal :=
  .next ((s.setIdx 0).setCode .spreader .ok)

/-- The chip of the next push (42_pn_spreader.md R102). -/
def State.chip (s : State) : Bool := chipAt s.pn s.idx.val

/-- The modulated sample of the next push, with the free value of a NaN product (42_pn_spreader.md R103, R106). -/
def State.product (s : State) : Word := fmul32 s.sampleIn s.chip (Config.nanDraw s.draws)

/-- The count of draws after a push: a NaN product takes one (log entry 8). -/
def State.drawsAfterPush (s : State) : Nat :=
  if productIsNaN s.sampleIn s.chip then s.draws + 1 else s.draws

/-- Append a modulated sample: MOD_OUT, four bytes of MODBUF, IDX + 1 (42_pn_spreader.md R103). -/
def State.appendSample (s : State) (m : Word) : State :=
  ((s.setModOut m).setModbuf (Memory.storeSample s.modbuf s.idx.val m)).setIdx (s.idx + 1)

/-- SPPUSH (42_pn_spreader.md R103): E_FULL at IDX = 100, else the product is appended. The multiply signals nothing
(R107). -/
def execSppush (s : State) : Host.Outcome State Fault Refusal :=
  .next
    (if s.idx.val = Config.sigLen then raise .full s
    else ((s.appendSample s.product).setDraws s.drawsAfterPush).setCode .spreader .ok)

end Sys2Proof.Machine
end

