-- ==== Sys2Proof/Machine/Timer.lean ====
section
/-! DEFINITION. The meanings of TPROG and STSIG (41_timer_period.md). -/

namespace Sys2Proof.Machine

/-- TPROG (41_timer_period.md R91): programs the pair of PeriodMap and enables the output stage, or raises the error
PeriodMap names and programs nothing. -/
def execTprog (s : State) : Host.Outcome State Fault Refusal :=
  .next
    (match periodMap s.params s.freq.toNat with
    | .pair psc arr => (s.setTimer (BitVec.ofNat 32 psc) (BitVec.ofNat 32 arr)).setCode .hopper .ok
    | .unachievable e => raise e s)

/-- STSIG imm (41_timer_period.md R95): always succeeds. -/
def execStsig (imm : Bool) (s : State) : Host.Outcome State Fault Refusal :=
  .next ((s.setStatusSig imm).setCode .hopper .ok)

end Sys2Proof.Machine
end

