-- ==== Sys2Proof/Machine/Dispatch.lean ====
section
/-! DEFINITION. One arm per constructor of Instr. -/

namespace Sys2Proof.Machine

def exec (i : Instr) (s : State) : Host.Outcome State Fault Refusal :=
  match i with
  | .lcgnext => Sys2Proof.Machine.execLcgnext s
  | .frqnext => Sys2Proof.Machine.execFrqnext s
  | .tprog => Sys2Proof.Machine.execTprog s
  | .stsig imm => Sys2Proof.Machine.execStsig imm s
  | .spstart => Sys2Proof.Machine.execSpstart s
  | .sppush => Sys2Proof.Machine.execSppush s

end Sys2Proof.Machine
end

