-- ==== Sys2Proof/Machine/Access.lean ====
section
/-! DEFINITION. What the block does with one host event: an admitted access, a command word, the reset input. -/

namespace Sys2Proof.Machine

/-- A word written to a command register: the command it encodes, or E_ILLEGAL on the unit of the port
(30_encoding.md R60, R62, R66). -/
def runCommand (p : Port) (w : Word) (s : State) : Host.Outcome State Fault Refusal :=
  match decode p w with
  | .ok i => exec i s
  | .error _ => .next (raise (.illegal p.unit) s)

/-- An admitted access (20_memory.md R45, R46, R54). -/
def perform (act : BusAction) (s : State) : Host.Outcome State Fault Refusal :=
  match act with
  | .readReg r => .next (s.setResponse (.word (readReg r s)))
  | .readFrame j => .next (s.setResponse (.byte (s.frameByte j)))
  | .writeFreqLo v => .next ((s.setFreq (withFreqLow s.freq v)).setResponse .done)
  | .writeFreqHi v => .next ((s.setFreq (withFreqHigh s.freq v)).setResponse .done)
  | .writeSampleIn v => .next ((s.setSampleIn v).setResponse .done)
  | .command p w => runCommand p w (s.setResponse .done)

/-- A host access: admission first, then its effect; BusError where it is not admitted (20_memory.md R44,
60_exceptions.md R144). -/
def runAccess (a : Access) (s : State) : Host.Outcome State Fault Refusal :=
  match admission s.resetLine a with
  | .error c => .fault (.busError c)
  | .ok act => perform act s

/-- One host event. -/
def runEvent (e : HostEvent) (s : State) : Host.Outcome State Fault Refusal :=
  match e with
  | .access a => runAccess a s
  | .drive b => .next (driveReset b s)

/-- The host access that issues a table row's word: a 32-bit write to the port its UNIT field names (log entry 3). -/
def tableAccess (nbits w : Nat) : Access :=
  let v := tableWord nbits w
  .write .word (portOffset (tablePort v)) v

/-- One step of the machine: it takes the next host event; with none pending the block idles (10_state.md R12). -/
def takeEvent (s : State) : Host.Outcome State Fault Refusal :=
  match s.pending with
  | [] => .next s
  | e :: rest => runEvent e (s.setPending rest)

end Sys2Proof.Machine
end

