-- ==== Sys2Proof/Machine/Step.lean ====
section
/-! DEFINITION. The step function, and how an instruction is placed where the step takes it. -/

namespace Sys2Proof.Machine

/-- One step: the next host event (20_memory.md R48). -/
def step (s : State) : Host.Outcome State Fault Refusal := takeEvent s

/-- `s` with reset released and the write of a table row's word as the very next host event, before those already
pending (log entry 2). -/
def State.withFetchWord (s : State) (nbits w : Nat) : State :=
  (s.setResetLine false).setPending (.access (tableAccess nbits w) :: s.pending)

end Sys2Proof.Machine
end

