-- ==== Sys2Proof/Machine/Script.lean ====
section
/-! DEFINITION. The host-script notation: each statement as the host events it stands for (30_encoding.md R69, R70). -/

namespace Sys2Proof.Machine

/-- `WR reg, value`: `MemWrite(offset(reg), 4, value)` (30_encoding.md R69). -/
def wrEvent (r : Reg) (v : Word) : HostEvent := .access (.write .word (regOffset r) v)

/-- `RD reg`: `MemRead(offset(reg), 4)` (30_encoding.md R69). -/
def rdEvent (r : Reg) : HostEvent := .access (.read .word (regOffset r))

/-- `RDB FRAME[j]`: `MemRead(0x200 + j, 1)` (30_encoding.md R69). -/
def rdbEvent (j : Nat) : HostEvent := .access (.read .byte (BitVec.ofNat 10 (0x200 + j)))

/-- A command statement: the write of its word to its port (30_encoding.md R69). -/
def commandEvent (i : Instr) : HostEvent := .access (.write .word (portOffset i.port) (encode i))

/-- The expansion of `SETFREQ v` (30_encoding.md R70). -/
def setfreqEvents (v : DWord) : List HostEvent := [wrEvent .freqLo (freqLow v), wrEvent .freqHi (freqHigh v)]

/-- The expansion of `PUSH s` (30_encoding.md R70). -/
def pushEvents (sample : Word) : List HostEvent := [wrEvent .sampleIn sample, commandEvent .sppush]

/-- The host events of a statement, in order (30_encoding.md R69, R70). -/
def stmtEvents : HostStmt → List HostEvent
  | .wr r v => [wrEvent r v]
  | .rd r => [rdEvent r]
  | .rdb j => [rdbEvent j]
  | .command i => [commandEvent i]
  | .reset => [.drive true, .drive false]
  | .setfreq v => setfreqEvents v
  | .program v => setfreqEvents v ++ [commandEvent .tprog]
  | .hop => [commandEvent .frqnext, commandEvent .tprog]
  | .push sample => pushEvents sample
  | .spread100 samples => commandEvent .spstart :: samples.flatMap pushEvents
  | .readframe => (List.range Config.frameLen).map rdbEvent

/-- The host events of a script, statement by statement. -/
def scriptEvents (stmts : List HostStmt) : List HostEvent := stmts.flatMap stmtEvents

end Sys2Proof.Machine
end

