-- ==== Sys2Proof/Machine/HostSide.lean ====
section
/-! DEFINITION. The host-side protocol around the block (43_host_sequences.md): the hop cycle and its report, the
acknowledged, bounded transmission of a frame, and the host's error classes. It is outside the block and no part of its
state (00_scope.md R4, 43_host_sequences.md R120; log entry 16): each sequence issues its accesses to the block and acts
on the answers. -/

namespace Sys2Proof.Machine

/-! ### The host issues an access and waits for its answer -/

/-- Go on with what an outcome answers; a BusError ends the sequence (93_implementation_defined.md U9; log entry 4). -/
def andThen {α β : Type} (o : Host.Outcome α Fault Refusal) (f : α → Host.Outcome β Fault Refusal) :
    Host.Outcome β Fault Refusal :=
  match o with
  | .next a => f a
  | .fault r => .fault r
  | .refused r => .refused r

/-- The host issues one event now; the events already pending stay behind it (20_memory.md R48). -/
def issue (e : HostEvent) (s : State) : Host.Outcome State Fault Refusal := step (s.setPending (e :: s.pending))

/-- The host issues events one after another (20_memory.md R48). -/
def issueAll : List HostEvent → State → Host.Outcome State Fault Refusal
  | [], s => .next s
  | e :: es, s => andThen (issue e s) (issueAll es)

/-- The host runs a script; the state's `response` is then the answer to its last access (30_encoding.md R69, R70). -/
def runStmts (stmts : List HostStmt) (s : State) : Host.Outcome State Fault Refusal :=
  issueAll (scriptEvents stmts) s

/-- The value a register read has answered. Only a completed read is asked for it. -/
def Response.wordData : Response → Word
  | .word v => v
  | .byte b => b.setWidth 32
  | .done => 0#32
  | .noAccess => 0#32

/-- The byte a frame-window read has answered. Only a completed read is asked for it. -/
def Response.byteData (r : Response) : Byte := r.wordData.setWidth 8

/-! ### Acknowledgments, failures and their classes -/

/-- What `receive(ACK_TIMEOUT)` gives (43_host_sequences.md R124, R126). -/
inductive Reply where
  | timeout
  | byte (b : Byte)
deriving DecidableEq, Repr

/-- Success is exactly one byte equal to 0x55 (43_host_sequences.md R126). -/
def Reply.isAck : Reply → Bool
  | .timeout => false
  | .byte b => decide (b = Config.ackByte)

/-- The host's error classes (43_host_sequences.md R129, 60_exceptions.md R147). -/
inductive HostErrorClass where
  /-- "Transient/retryable": the whole frame is sent again, up to the ceiling. -/
  | transientRetryable
  /-- "Configuration/fatal": a hard error. -/
  | configurationFatal
  /-- "Data errors": a malformed acknowledgment, treated as no acknowledgment. -/
  | dataError
  /-- A programming error of the host; no counterpart in the source. -/
  | programming
deriving DecidableEq, Repr

/-- The class of a result code, none for success (60_exceptions.md R147). -/
def hostErrorClass : ResultCode → Option HostErrorClass
  | .ok => none
  | .illegal => some .programming
  | .unachHigh => some .configurationFatal
  | .unachLow => some .configurationFatal
  | .full => some .programming

/-- What can go wrong for the host (43_host_sequences.md R122, R126, R127). Clock and GPIO initialization is outside
(00_scope.md R5). -/
inductive HostFailure where
  /-- A command left this code in its RESULT register. -/
  | command (code : Byte)
  /-- An attempt got this reply, which is no acknowledgment. -/
  | acknowledgment (r : Reply)
  /-- The attempt at the retry ceiling failed too: the terminal failure. -/
  | retriesExhausted
deriving DecidableEq, Repr

/-- The classes of a failed acknowledgment (43_host_sequences.md R126, R129). DEDUCED (log entry 22): no byte is the timeout of
the transient class; a wrong byte is its mismatch and the data errors' malformed acknowledgment. -/
def replyClasses : Reply → List HostErrorClass
  | .timeout => [.transientRetryable]
  | .byte b => if (Reply.byte b).isAck then [] else [.transientRetryable, .dataError]

/-- The classes of a failure (43_host_sequences.md R129). DEDUCED (log entry 22): the terminal failure belongs to the
transient class, whose retries it ends. -/
def failureClasses : HostFailure → List HostErrorClass
  | .command code => ((ResultCode.ofBits code).bind hostErrorClass).toList
  | .acknowledgment r => replyClasses r
  | .retriesExhausted => [.transientRetryable]

/-- The log the host emits: "a log line per failure class" (43_host_sequences.md R122, R129). DESIGN CHOICE (log entry
23): the spec does not say whether repeated failures of one class give one line or one each; here every failure gives one
line for each of its classes. -/
def logLines (failures : List HostFailure) : List HostErrorClass := failures.flatMap failureClasses

/-! ### The hop cycle -/

/-- The hop report: the `bytes` low bytes of the frequency, least significant first (43_host_sequences.md R123; log
entry 11). -/
def hopReport (bytes : Nat) (freq : DWord) : List Byte :=
  (List.range bytes).map fun k => freq.extractLsb' (8 * k) 8

/-- How one hop ends (43_host_sequences.md R121, R122). -/
inductive HopRun where
  /-- The report was sent; `dwell` is the block during the dwell window, `block` the block after it. -/
  | reported (report : List Byte) (dwell block : State)
  /-- TPROG failed: a hard error. No report is sent and the status signal is not touched. -/
  | hardError (failure : HostFailure) (block : State)
deriving DecidableEq, Repr

/-- The hop after a successful TPROG: read FREQ, send the report, STATUS_SIG high for the dwell window, then low
(43_host_sequences.md R121). -/
def hopSignal (bytes : Nat) (s : State) : Host.Outcome HopRun Fault Refusal :=
  andThen (runStmts [.rd .freqLo] s) fun low =>
  andThen (runStmts [.rd .freqHi] low) fun high =>
  andThen (runStmts [.command (.stsig true)] high) fun dwell =>
  andThen (runStmts [.command (.stsig false)] dwell) fun block =>
  .next (.reported (hopReport bytes (high.response.wordData ++ low.response.wordData)) dwell block)

/-- What the host does with the code of TPROG (43_host_sequences.md R121, R122). -/
def hopAfterCode (bytes : Nat) (code : Byte) (s : State) : Host.Outcome HopRun Fault Refusal :=
  if code = ResultCode.ok.bits then hopSignal bytes s else .next (.hardError (.command code) s)

/-- One hop, with a report of `bytes` bytes (43_host_sequences.md R121). -/
def hopCycle (bytes : Nat) (s : State) : Host.Outcome HopRun Fault Refusal :=
  andThen (runStmts [.command .frqnext, .command .tprog, .rd .hopResult] s) fun t =>
  hopAfterCode bytes t.response.byteData t

/-! ### Frame transmission -/

/-- The states of the transmission (43_host_sequences.md R125), with the number of the attempt; RETRY is the step from
`awaitingAck n` to `sending (n + 1)`. -/
inductive TxState where
  | idle
  | sending (attempt : Nat)
  | awaitingAck (attempt : Nat)
  | acked
  | failed
  /-- FRAME_RDY read 0, so that nothing is sent (log entry 21). -/
  | notReady
deriving DecidableEq, Repr

/-- What moves the transmission on. -/
inductive TxEvent where
  /-- SPR_STAT has been read; `frameReady` is its bit 0, FRAME_RDY. -/
  | start (frameReady : Bool)
  | sent
  | reply (r : Reply)
deriving DecidableEq, Repr

/-- The transitions of the transmission (43_host_sequences.md R125, R127). -/
def txNext (ceiling : Nat) : TxState → TxEvent → TxState
  | .idle, .start ready => if ready then .sending 0 else .notReady
  | .sending n, .sent => .awaitingAck n
  | .awaitingAck n, .reply r =>
    if r.isAck then .acked else if n = ceiling then .failed else .sending (n + 1)
  | t, _ => t

/-- The state after an attempt that got the reply `r` (43_host_sequences.md R125). -/
def afterAttempt (ceiling : Nat) (t : TxState) (r : Reply) : TxState :=
  txNext ceiling (txNext ceiling t .sent) (.reply r)

/-- The frames sent and the final state, for the replies to successive attempts (43_host_sequences.md R125): the state
machine alone, for a given frame; `sendAttempts` is the machine over the block. -/
def transmit (ceiling : Nat) (frame : List Byte) : List Reply → TxState → List (List Byte) × TxState
  | [], t => ([], t)
  | r :: rest, t =>
    match t with
    | .sending _ =>
      let after := transmit ceiling frame rest (afterAttempt ceiling t r)
      (frame :: after.1, after.2)
    | _ => ([], t)

/-- The 401 bytes of the frame in a state (43_host_sequences.md R125, 10_state.md R29). -/
def frameBytes (s : State) : List Byte := (List.range Config.frameLen).map s.frameByte

/-- The bytes a list of frame-window reads has answered, and the block after them. -/
structure FrameRead where
  bytes : List Byte
  block : State
deriving DecidableEq, Repr

/-- The host issues frame-window reads and keeps the bytes they answer (20_memory.md R46). -/
def readBytes : List HostEvent → State → Host.Outcome FrameRead Fault Refusal
  | [], s => .next ⟨[], s⟩
  | e :: es, s =>
    andThen (issue e s) fun t =>
    andThen (readBytes es t) fun r =>
    .next ⟨t.response.byteData :: r.bytes, r.block⟩

/-- READFRAME, the bytes the host fetches for one attempt (43_host_sequences.md R125, 30_encoding.md R70). -/
def readFrame (s : State) : Host.Outcome FrameRead Fault Refusal := readBytes (stmtEvents .readframe) s

/-- A transmission: the block after it, the frames sent in order, how it stands, what failed on the way. -/
structure Transmission where
  block : State
  sent : List (List Byte)
  fate : TxState
  failures : List HostFailure
deriving DecidableEq, Repr

/-- What an attempt that got the reply `r` and led to `after` adds to the failures (43_host_sequences.md R126, R127). -/
def attemptFailures (r : Reply) (after : TxState) : List HostFailure :=
  if r.isAck then []
  else if after = .failed then [.acknowledgment r, .retriesExhausted]
  else [.acknowledgment r]

/-- The loop of 43_host_sequences.md R125 over the replies to successive attempts: each attempt fetches the frame from
the block and sends it whole; the loop ends in ACKED or FAILED, and is still under way where the replies end first. -/
def sendAttempts (ceiling : Nat) : List Reply → TxState → State → Host.Outcome Transmission Fault Refusal
  | [], t, s => .next ⟨s, [], t, []⟩
  | r :: rest, t, s =>
    match t with
    | .sending _ =>
      let after := afterAttempt ceiling t r
      andThen (readFrame s) fun f =>
      andThen (sendAttempts ceiling rest after f.block) fun x =>
      .next { x with sent := f.bytes :: x.sent, failures := attemptFailures r after ++ x.failures }
    | _ => .next ⟨s, [], t, []⟩

/-- The transmission of a baseband signal (43_host_sequences.md R125): SPREAD100, the check that FRAME_RDY is 1, then
the attempts. -/
def transmitSignal (ceiling : Nat) (samples : List Word) (replies : List Reply) (s : State) :
    Host.Outcome Transmission Fault Refusal :=
  andThen (runStmts [.spread100 samples, .rd .sprStat] s) fun t =>
  sendAttempts ceiling replies (txNext ceiling .idle (.start (t.response.wordData.getLsbD 0))) t

end Sys2Proof.Machine
end

