-- ==== Sys2Proof/Safety.lean ====
section
/-! DEFINITION. The terms the statements use: which parts of two states agree, the invariant, runs, and the frequency
a programmed pair means. -/

namespace Sys2Proof.Machine

/-- Two states agree on the Hopper state of 10_state.md R10. -/
structure SameHopper (s t : State) : Prop where
  lcg : t.lcg = s.lcg
  freq : t.freq = s.freq
  timPsc : t.timPsc = s.timPsc
  timArr : t.timArr = s.timArr
  outEn : t.outEn = s.outEn
  statusSig : t.statusSig = s.statusSig
  hopCode : t.hopCode = s.hopCode
  hopFIll : t.hopFIll = s.hopFIll
  hopFUnach : t.hopFUnach = s.hopFUnach

/-- Two states agree on the Spreader state of 10_state.md R10, every byte of MODBUF among it. -/
structure SameSpreader (s t : State) : Prop where
  pn : t.pn = s.pn
  sampleIn : t.sampleIn = s.sampleIn
  idx : t.idx = s.idx
  modOut : t.modOut = s.modOut
  modbuf : t.modbuf = s.modbuf
  modByte : ∀ j, t.modByte j = s.modByte j
  sprCode : t.sprCode = s.sprCode
  sprFIll : t.sprFIll = s.sprFIll
  sprFFull : t.sprFFull = s.sprFFull

/-- Two states agree on the model's own fields but the events pending and the answer on the bus. -/
structure SameSetting (s t : State) : Prop where
  params : t.params = s.params
  resetLine : t.resetLine = s.resetLine
  draws : t.draws = s.draws

/-- The programmed pair is one PeriodMap gives for some frequency, and none is programmed while the output stage is
disabled (10_state.md R35(f), R15). -/
def State.timerConsistent (s : State) : Prop :=
  if s.outEn then ∃ f : DWord, periodMap s.params f.toNat = .pair s.timPsc.toNat s.timArr.toNat
  else s.timPsc = 0#32 ∧ s.timArr = 0#32

/-- The invariant of the machine (10_state.md R35, R24 for the buffer's form): the parameters are in
range, MODBUF is in canonical form, the LCG holds the seed or a value below the modulus, the timer registers fit their
widths, and the programmed pair is one PeriodMap gives. -/
structure State.Inv (s : State) : Prop where
  params : s.params.wf = true
  modbuf : Memory.wf s.modbuf = true
  lcg : s.lcg = s.params.seed ∨ s.lcg.toNat ≤ 2147483646
  timPsc : s.timPsc.toNat < 2 ^ s.params.pscBits
  timArr : s.timArr.toNat < 2 ^ s.params.arrBits
  timer : s.timerConsistent

/-- The next host event is the reset input being driven. -/
def State.nextDrivesReset (s : State) : Prop := ∃ b rest, s.pending = .drive b :: rest

/-- A run of `k` steps, stopping at the first fault: Host.Core.run of this machine (`run_eq_coreRun`). -/
def run : Nat → State → Host.Outcome State Fault Refusal
  | 0, s => .next s
  | k + 1, s =>
    match step s with
    | .next t => run k t
    | .fault r => .fault r
    | .refused r => .refused r

/-- A safe run of `k` steps: none of them is a BusError. -/
def SafeRun (k : Nat) (s : State) : Prop := ∃ t, run k s = .next t

/-- The events of a list that are bus accesses, not changes of the reset input. -/
def AccessesOnly (es : List HostEvent) : Prop := ∀ e ∈ es, ∃ a, e = .access a

/-- The next host event is the access `a`, reset is released, and `rest` follows. -/
structure State.NextAccess (s : State) (a : Access) (rest : List HostEvent) : Prop where
  released : s.resetLine = false
  pending : s.pending = .access a :: rest

/-- The unit whose bank an access goes to: the Hopper bank lies below 0x40, the Spreader bank and the frame window from
0x40 on (20_memory.md R40). -/
def bank : HostEvent → UnitId
  | .access (.read _ off) => if off.toNat < 0x40 then .hopper else .spreader
  | .access (.write _ off _) => if off.toNat < 0x40 then .hopper else .spreader
  | .drive _ => .hopper

/-- `m` is a product of the sample `a` and the chip `c` by the table of 42_pn_spreader.md R105: the exact products bit
for bit, and of a NaN product only that it is quiet (R106). -/
structure IsProduct (a : Word) (c : Bool) (m : Word) : Prop where
  byOne : c = true → ¬(a.extractLsb' 23 8 = 0xFF#8 ∧ a.extractLsb' 0 23 ≠ 0#23) → m = a
  byZero : c = false → a.extractLsb' 23 8 ≠ 0xFF#8 → m = a &&& 0x80000000#32
  infinityByZero : c = false → a.extractLsb' 23 8 = 0xFF#8 → a.extractLsb' 0 23 = 0#23 →
    m.extractLsb' 22 9 = BitVec.allOnes 9
  ofNaN : a.extractLsb' 23 8 = 0xFF#8 → a.extractLsb' 0 23 ≠ 0#23 → m.extractLsb' 22 9 = BitVec.allOnes 9

/-- The offset of an access. -/
def accessOffset : Access → Nat
  | .read _ off => off.toNat
  | .write _ off _ => off.toNat

/-- The width of an access. -/
def accessWidth : Access → Width
  | .read w _ => w
  | .write w _ _ => w

/-- Whether an access writes. -/
def accessWrites : Access → Bool
  | .read _ _ => false
  | .write _ _ _ => true

/-- An access the block does not admit, clause by clause as 20_memory.md R44 lists them. -/
inductive NotAdmitted (inReset : Bool) (a : Access) : Prop where
  /-- (a) an unmapped offset. -/
  | unmapped (h : (0x020 ≤ accessOffset a ∧ accessOffset a ≤ 0x03F) ∨ (0x05C ≤ accessOffset a ∧ accessOffset a ≤ 0x1FF) ∨
      (0x391 ≤ accessOffset a ∧ accessOffset a ≤ 0x3FF))
  /-- (b) a register-space access that is not 32 bits wide or not 4-byte aligned. -/
  | registerSpace (h : accessOffset a ≤ 0x01F ∨ (0x040 ≤ accessOffset a ∧ accessOffset a ≤ 0x05B))
      (hw : accessWidth a ≠ .word ∨ accessOffset a % 4 ≠ 0)
  /-- (c) a frame-window access that is not an 8-bit read. -/
  | frameWindow (h : 0x200 ≤ accessOffset a ∧ accessOffset a ≤ 0x390) (hw : accessWrites a = true ∨ accessWidth a ≠ .byte)
  /-- (d) a write to a read-only register. -/
  | writeReadOnly (h : accessOffset a ∈ [0x04, 0x08, 0x0C, 0x18, 0x1C, 0x44, 0x48, 0x50, 0x54, 0x58])
      (hw : accessWrites a = true)
  /-- (e) a read of a write-only register. -/
  | readWriteOnly (h : accessOffset a ∈ [0x00, 0x40]) (hw : accessWrites a = false)
  /-- (f) any access while reset is asserted. -/
  | whileReset (h : inReset = true)

/-- Every piece of the block's state is at its value of 10_state.md R34, for the seed `seed` and the chips `pn`. -/
structure State.AtReset (s : State) (seed : Word) (pn : BitVec 11) : Prop where
  lcg : s.lcg = seed
  freq : s.freq = 0#64
  timPsc : s.timPsc = 0#32
  timArr : s.timArr = 0#32
  outEn : s.outEn = false
  statusSig : s.statusSig = false
  hopCode : s.hopCode = .ok
  hopFIll : s.hopFIll = false
  hopFUnach : s.hopFUnach = false
  pn : s.pn = pn
  sampleIn : s.sampleIn = 0#32
  idx : s.idx = 0
  modOut : s.modOut = 0#32
  modByte : ∀ j, s.modByte j = 0x00#8
  sprCode : s.sprCode = .ok
  sprFIll : s.sprFIll = false
  sprFFull : s.sprFFull = false

/-- Whether an event issues a command that takes one LCG step: the word of LCGNEXT or of FRQNEXT written to HOP_CMD
(40_lcg_frequency.md R84). -/
def takesLcgStep : HostEvent → Bool
  | .access (.write .word off w) => decide (off = 0x00#10) && (decide (w = 0x11#32) || decide (w = 0x12#32))
  | _ => false

/-- The frequency a programmed pair emits, in hertz (41_timer_period.md R90). -/
def fOut (fClk psc arr : Nat) : ℚ := fClk / ((psc + 1) * (arr + 1))

end Sys2Proof.Machine
end

