-- ==== Sys2Proof/Certificates/Slice0/Obligations.lean ====
section
/-! DEFINITION. The statements for the provers, from the numbered rules of spec/. -/

open Sys2Proof Sys2Proof.Machine

/-! ### Encoding (30_encoding.md) -/

/-- Decoding and encoding agree, both ways: a word on a port decodes to a well-formed instruction exactly when the port
is its port and the word is its encoding. 30_encoding.md sections 2 and 3. -/
def Obligations.DecodeGivesExactlyTheEncodedInstruction : Prop :=
  ∀ (p : Port) (w : Word) (i : Instr), i.wf = true → (decode p w = .ok i ↔ p = i.port ∧ w = encode i)

/-- 30_encoding.md R65: every (port, word) pair is one of the seven legal words on its own port, or illegal. -/
def Obligations.LegalPairsAreTheSevenWords : Prop :=
  ∀ (p : Port) (w : Word), (∃ i, decode p w = .ok i) ↔
    (p, w) ∈ [(Port.hopCmd, 0x00000011#32), (Port.hopCmd, 0x00000012#32), (Port.hopCmd, 0x00000013#32),
      (Port.hopCmd, 0x00000014#32), (Port.hopCmd, 0x00000114#32), (Port.sprCmd, 0x00000021#32),
      (Port.sprCmd, 0x00000022#32)]

/-- 30_encoding.md R64: a word selects a row when `w AND mask` is the row's match and the port is the row's port. -/
def Obligations.OpcodeRowsSelectByMaskAndPort : Prop :=
  ∀ (p : Port) (w : Word),
    (decode p w = .ok .lcgnext ↔ p = .hopCmd ∧ w &&& 0xFFFFFFFF#32 = 0x00000011#32) ∧
    (decode p w = .ok .frqnext ↔ p = .hopCmd ∧ w &&& 0xFFFFFFFF#32 = 0x00000012#32) ∧
    (decode p w = .ok .tprog ↔ p = .hopCmd ∧ w &&& 0xFFFFFFFF#32 = 0x00000013#32) ∧
    (∀ imm, decode p w = .ok (.stsig imm) ↔
      p = .hopCmd ∧ w &&& 0xFFFFFEFF#32 = 0x00000014#32 ∧ w.getLsbD 8 = imm) ∧
    (decode p w = .ok .spstart ↔ p = .sprCmd ∧ w &&& 0xFFFFFFFF#32 = 0x00000021#32) ∧
    (decode p w = .ok .sppush ↔ p = .sprCmd ∧ w &&& 0xFFFFFFFF#32 = 0x00000022#32)

/-- 30_encoding.md section 3: the seven words as the table writes them, and words of R66 that are illegal. -/
def Obligations.WrittenCommandWordsDecode : Prop :=
  decode .hopCmd 0x00000011#32 = .ok .lcgnext ∧ decode .hopCmd 0x00000012#32 = .ok .frqnext ∧
  decode .hopCmd 0x00000013#32 = .ok .tprog ∧ decode .hopCmd 0x00000014#32 = .ok (.stsig false) ∧
  decode .hopCmd 0x00000114#32 = .ok (.stsig true) ∧ decode .sprCmd 0x00000021#32 = .ok .spstart ∧
  decode .sprCmd 0x00000022#32 = .ok .sppush ∧
  decode .hopCmd 0x00000021#32 = .error .wrongUnit ∧ decode .sprCmd 0x00000122#32 = .error .immediateSet

/-! ### A step runs the decoded instruction -/

/-- A 32-bit write of a legal word to a command port, with reset released: the step is the execution of the decoded
command, on the state from which the access has been taken and answered. 30_encoding.md R60. -/
def Obligations.StepRunsTheDecodedCommand : Prop :=
  (portOffset .hopCmd = 0x00#10 ∧ portOffset .sprCmd = 0x40#10) ∧
  ∀ (s : State) (p : Port) (w : Word) (i : Instr) (rest : List HostEvent),
    s.NextAccess (.write .word (portOffset p) w) rest → decode p w = .ok i →
    step s = exec i { s with pending := rest, response := .done }

/-- 30_encoding.md R66: an illegal command writes E_ILLEGAL to the RESULT of the port's unit, sets that unit's sticky
flag and changes nothing else; and the words the rule names are illegal. -/
def Obligations.IllegalWordsRaiseIllegalOnly : Prop :=
  (∀ (s : State) (w : Word) (rest : List HostEvent) (e : DecodeError),
    s.NextAccess (.write .word 0x00#10 w) rest → decode .hopCmd w = .error e →
    step s = .next { s with pending := rest, response := .done, hopCode := .illegal, hopFIll := true }) ∧
  (∀ (s : State) (w : Word) (rest : List HostEvent) (e : DecodeError),
    s.NextAccess (.write .word 0x40#10 w) rest → decode .sprCmd w = .error e →
    step s = .next { s with pending := rest, response := .done, sprCode := .illegal, sprFIll := true }) ∧
  (∀ (p : Port) (w : Word),
    (w = 0x00000000#32 ∨ w = 0xFFFFFFFF#32 ∨ w.extractLsb' 9 23 ≠ 0#23 ∨
      w ∈ [0x00000111#32, 0x00000112#32, 0x00000113#32, 0x00000121#32, 0x00000122#32] ∨
      (p = .hopCmd ∧ w.extractLsb' 4 4 ≠ 0x1#4) ∨ (p = .sprCmd ∧ w.extractLsb' 4 4 ≠ 0x2#4) ∨
      (p = .hopCmd ∧ (w.extractLsb' 0 4 = 0x0#4 ∨ 0x5#4 ≤ w.extractLsb' 0 4)) ∨
      (p = .sprCmd ∧ (w.extractLsb' 0 4 = 0x0#4 ∨ 0x3#4 ≤ w.extractLsb' 0 4))) →
    ∃ e, decode p w = .error e)

/-- The model's choice of log entry 1: with no host event pending the block idles. 10_state.md R12 (a command is executed
when, and only when, the host writes one) rests under it. -/
def Obligations.NoPendingEventChangesNothing : Prop :=
  ∀ s : State, s.pending = [] → step s = .next s

/-- Each step takes exactly the next host event and leaves those after it in order. 20_memory.md R48. -/
def Obligations.StepTakesOneEventInOrder : Prop :=
  ∀ s t : State, step s = .next t → t.pending = s.pending.tail

/-- Every command answers a next state from every state, and touches none of the model's own fields but the count of
draws. 93_implementation_defined.md: nothing in the block is stuck. -/
def Obligations.EveryCommandCompletes : Prop :=
  ∀ (i : Instr) (s : State), ∃ t, exec i s = .next t ∧ t.pending = s.pending ∧ t.response = s.response ∧
    t.params = s.params ∧ t.resetLine = s.resetLine ∧ s.draws ≤ t.draws

/-- How the host's tool places an instruction (log entry 2): the very next step runs it. -/
def Obligations.PlacedInstructionRunsNext : Prop :=
  ∀ (i : Instr) (s : State),
    step (s.withFetchWord 32 (encode i).toNat) = exec i { s with resetLine := false, response := .done }

/-! ### LCG and frequency (40_lcg_frequency.md) -/

/-- 40_lcg_frequency.md R80: LCGNEXT always succeeds, steps LCG in exact arithmetic and changes nothing else but its
result code; its word, its reading and its corner cases. -/
def Obligations.LcgnextStepsTheGenerator : Prop :=
  decode .hopCmd 0x00000011#32 = .ok .lcgnext ∧
  ∀ s : State, ∃ t, exec .lcgnext s = .next t ∧
    t.lcg.toNat = (48271 * s.lcg.toNat) % 2147483647 ∧
    readReg .lcgState t = t.lcg ∧ t.lcg.getLsbD 31 = false ∧
    t = { s with lcg := t.lcg, hopCode := .ok } ∧
    (∀ a, t.modByte a = s.modByte a) ∧
    (s.lcg = 0#32 → t.lcg = 0#32) ∧
    (s.lcg = 2147483647#32 ∨ s.lcg = 4294967294#32 → t.lcg = 0#32) ∧
    (s.lcg = 1#32 ∨ s.lcg = 4294967295#32 → t.lcg = 48271#32) ∧
    (s.lcg = 2147483646#32 → t.lcg = 2147435376#32) ∧
    (s.lcg = 123456789#32 → t.lcg = 115541394#32)

/-- 40_lcg_frequency.md R82: FRQNEXT always succeeds, takes the same step as LCGNEXT, writes all of FREQ and changes
nothing else but its result code; its word and its corner cases. -/
def Obligations.FrqnextWritesTheMappedFrequency : Prop :=
  decode .hopCmd 0x00000012#32 = .ok .frqnext ∧
  ∀ s : State, ∃ t u, exec .frqnext s = .next t ∧ exec .lcgnext s = .next u ∧
    t.lcg = u.lcg ∧ t.lcg.toNat = (48271 * s.lcg.toNat) % 2147483647 ∧
    t.freq.toNat = 300000000 + t.lcg.toNat % 5500000000 ∧
    t = { s with lcg := t.lcg, freq := t.freq, hopCode := .ok } ∧
    (∀ a, t.modByte a = s.modByte a) ∧
    (t.lcg = 0#32 → t.freq.toNat = 300000000) ∧
    (t.lcg = 2147483646#32 → t.freq.toNat = 2447483646) ∧
    (s.lcg = 123456789#32 → t.freq = 0x0000000018C4A892#64)

/-- The consequences (a) to (e) of 40_lcg_frequency.md R83, for every state. -/
def Obligations.GeneratedFrequencyStaysInTheBand : Prop :=
  ∀ s t : State, exec .frqnext s = .next t →
    t.freq.toNat = 300000000 + t.lcg.toNat ∧
    300000000 ≤ t.freq.toNat ∧ t.freq.toNat ≤ 2447483646 ∧ t.freq.toNat ≤ 5799999999 ∧
    (s.lcg.toNat % 2147483647 ≠ 0 → 300000001 ≤ t.freq.toNat) ∧
    readReg .freqHi t = 0#32 ∧ (readReg .freqLo t).toNat = t.freq.toNat

/-- 40_lcg_frequency.md R85: from a non-degenerate value no step ever gives 0, from a degenerate one every step does. -/
def Obligations.OnlyDegenerateSeedsReachZero : Prop :=
  ∀ (x : Word) (n : Nat),
    (x.toNat % 2147483647 ≠ 0 → 1 ≤ (lcgStep^[n + 1] x).toNat ∧ (lcgStep^[n + 1] x).toNat ≤ 2147483646) ∧
    (x.toNat % 2147483647 = 0 → lcgStep^[n + 1] x = 0#32) ∧
    (x.toNat % 2147483647 = 0 ↔ x = 0#32 ∨ x = 2147483647#32 ∨ x = 4294967294#32)

/-- 40_lcg_frequency.md R84: along any run of accesses, LCG is its first value stepped as often as LCGNEXT and FRQNEXT
were written to HOP_CMD, whatever else the host did; so after a reset it is SEED stepped that often. -/
def Obligations.LcgIsSeedAndStepCountOnly : Prop :=
  (∀ (k : Nat) (s t : State), AccessesOnly (s.pending.take k) → run k s = .next t →
    t.lcg = lcgStep^[(s.pending.take k).countP takesLcgStep] s.lcg) ∧
  (∀ (s t : State) (es rest : List HostEvent), AccessesOnly es →
    s.pending = .drive true :: .drive false :: (es ++ rest) → run (es.length + 2) s = .next t →
    t.lcg = lcgStep^[es.countP takesLcgStep] s.params.seed)

/-! ### Timer and status signal (41_timer_period.md) -/

/-- TPROG programs the pair: for an achievable frequency it writes the pair of 41_timer_period.md R91, enables the output
stage, and changes nothing else but its result code. -/
def Obligations.TprogProgramsAnAchievableFrequency : Prop :=
  ∀ s : State, s.params.wf = true → 1 ≤ s.freq.toNat → s.freq.toNat ≤ s.params.fClk →
    s.params.fClk / s.freq.toNat ≤ 2 ^ (s.params.pscBits + s.params.arrBits) →
    ∃ t, exec .tprog s = .next t ∧
      t.timPsc.toNat = (s.params.fClk / s.freq.toNat - 1) / 2 ^ s.params.arrBits ∧
      t.timArr.toNat = s.params.fClk / s.freq.toNat / (t.timPsc.toNat + 1) - 1 ∧
      t = { s with timPsc := t.timPsc, timArr := t.timArr, outEn := true, hopCode := .ok } ∧
      ∀ a, t.modByte a = s.modByte a

/-- TPROG on an unachievable frequency: the code of 41_timer_period.md R91 and the sticky flag, and nothing else; the
old pair and the output stage stay as they were. -/
def Obligations.TprogFailsAndProgramsNothing : Prop :=
  ∀ s : State,
    (s.freq.toNat = 0 → exec .tprog s = .next { s with hopCode := .unachLow, hopFUnach := true }) ∧
    (s.params.fClk < s.freq.toNat → exec .tprog s = .next { s with hopCode := .unachHigh, hopFUnach := true }) ∧
    (1 ≤ s.freq.toNat → 2 ^ (s.params.pscBits + s.params.arrBits) < s.params.fClk / s.freq.toNat →
      exec .tprog s = .next { s with hopCode := .unachLow, hopFUnach := true })

/-- 41_timer_period.md R94, which the spec derives from R91: the laws (a) to (e) of PeriodMap, read off the state a
TPROG leaves. -/
def Obligations.PeriodMapLaws : Prop :=
  ∀ s t : State, s.params.wf = true → exec .tprog s = .next t →
    (t.hopCode = .ok ↔ 1 ≤ s.freq.toNat ∧ s.freq.toNat ≤ s.params.fClk ∧
      s.params.fClk / s.freq.toNat ≤ 2 ^ (s.params.pscBits + s.params.arrBits)) ∧
    (t.hopCode = .ok →
      s.params.fClk / s.freq.toNat ≤ (t.timPsc.toNat + 1) * 2 ^ s.params.arrBits ∧
      (∀ q, s.params.fClk / s.freq.toNat ≤ (q + 1) * 2 ^ s.params.arrBits → t.timPsc.toNat ≤ q) ∧
      1 ≤ s.params.fClk / s.freq.toNat / (t.timPsc.toNat + 1) ∧
      s.params.fClk / s.freq.toNat / (t.timPsc.toNat + 1) ≤ 2 ^ s.params.arrBits ∧
      t.timArr.toNat ≤ 2 ^ s.params.arrBits - 1 ∧ t.timPsc.toNat < 2 ^ s.params.pscBits ∧
      (t.timPsc.toNat + 1) * (t.timArr.toNat + 1) ≤ s.params.fClk / s.freq.toNat ∧
      (s.freq.toNat : ℚ) ≤ fOut s.params.fClk t.timPsc.toNat t.timArr.toNat ∧
      (fOut s.params.fClk t.timPsc.toNat t.timArr.toNat = s.freq.toNat ↔
        s.freq.toNat ∣ s.params.fClk ∧ t.timPsc.toNat + 1 ∣ s.params.fClk / s.freq.toNat)) ∧
    (s.params.fClk < 2 * s.freq.toNat → s.freq.toNat ≤ s.params.fClk →
      t.timPsc = 0#32 ∧ t.timArr = 0#32 ∧ fOut s.params.fClk t.timPsc.toNat t.timArr.toNat = s.params.fClk) ∧
    (∀ s' t' : State, s'.params.fClk = s.params.fClk → s'.params.pscBits = s.params.pscBits →
      s'.params.arrBits = s.params.arrBits → s'.freq = s.freq → exec .tprog s' = .next t' →
      t'.hopCode = t.hopCode ∧ (t.hopCode = .ok → t'.timPsc = t.timPsc ∧ t'.timArr = t.timArr))

/-- 41_timer_period.md R92: OUT_EN, once 1, stays 1 until reset, and is 0 when reset is released. -/
def Obligations.OutputStageStaysEnabledUntilReset : Prop :=
  (∀ s t : State, step s = .next t → ¬ s.nextDrivesReset → s.outEn = true → t.outEn = true) ∧
  (∀ (s : State) (rest : List HostEvent), s.resetLine = true → s.pending = .drive false :: rest →
    ∃ t, step s = .next t ∧ t.outEn = false)

/-- 41_timer_period.md R95: STSIG writes the status signal and its result code and nothing else; its words and its
reading at HOP_STAT bit 1. -/
def Obligations.StsigSetsTheStatusSignal : Prop :=
  decode .hopCmd 0x00000014#32 = .ok (.stsig false) ∧ decode .hopCmd 0x00000114#32 = .ok (.stsig true) ∧
  ∀ (imm : Bool) (s : State), ∃ t, exec (.stsig imm) s = .next t ∧
    t = { s with statusSig := imm, hopCode := .ok } ∧ (readReg .hopStat t).getLsbD 1 = imm ∧
    ∀ a, t.modByte a = s.modByte a

/-- STATUS_SIG is written only by STSIG and by reset (10_state.md R16). -/
def Obligations.OnlyStsigChangesTheStatusSignal : Prop :=
  ∀ s t : State, step s = .next t → ¬ s.nextDrivesReset → t.statusSig ≠ s.statusSig →
    ∃ rest, s.pending =
      .access (.write .word 0x00#10 (if t.statusSig then 0x00000114#32 else 0x00000014#32)) :: rest

/-- TPROG, STSIG and SPSTART give the same end state when repeated (20_memory.md R45). -/
def Obligations.RepeatedCommandsChangeNothingMore : Prop :=
  ∀ (i : Instr) (s t : State), (i = .tprog ∨ (∃ imm, i = .stsig imm) ∨ i = .spstart) →
    exec i s = .next t → exec i t = .next t

/-! ### Spreader (42_pn_spreader.md) -/

/-- 42_pn_spreader.md R101: SPSTART sets IDX to 0 and its result code and changes nothing else: not MODBUF, MOD_OUT or
SAMPLE_IN; its word, and FRAME_RDY then reads 0. -/
def Obligations.SpstartReturnsTheIndexToZero : Prop :=
  decode .sprCmd 0x00000021#32 = .ok .spstart ∧
  ∀ s : State, ∃ t, exec .spstart s = .next t ∧ t = { s with idx := 0, sprCode := .ok } ∧
    (readReg .sprStat t).getLsbD 0 = false ∧ readReg .sprIdx t = 0#32 ∧
    (∀ a, t.modByte a = s.modByte a) ∧ ∀ j, t.frameByte j = s.frameByte j

/-- SPPUSH while a sample fits (42_pn_spreader.md R103, R104): the product's four bytes, least significant first, at
`4 IDX` to `4 IDX + 3`, every other byte of MODBUF as before; IDX + 1; nothing else but MOD_OUT, the result code and the
model's count of draws. -/
def Obligations.SppushAppendsTheProduct : Prop :=
  ∀ s : State, Memory.wf s.modbuf = true → s.idx.val < 100 →
    ∃ t, exec .sppush s = .next t ∧ t.modOut = s.product ∧ t.idx.val = s.idx.val + 1 ∧ t.sprCode = .ok ∧
      (∀ k, k < 4 → t.modByte (4 * s.idx.val + k) = t.modOut.extractLsb' (8 * k) 8) ∧
      (∀ a, a < 4 * s.idx.val ∨ 4 * s.idx.val + 4 ≤ a → t.modByte a = s.modByte a) ∧
      t = { s with modOut := t.modOut, modbuf := t.modbuf, idx := t.idx, sprCode := .ok, draws := t.draws }

/-- The product an SPPUSH leaves in MOD_OUT is the binary32 product of the table of 42_pn_spreader.md R105, with the chip
`PN[IDX mod 11]` of R102, whatever the free value of a NaN product is (R106). -/
def Obligations.SppushProductFollowsTheTable : Prop :=
  (chipFloat true = 0x3F800000#32 ∧ chipFloat false = 0x00000000#32) ∧
  (∀ (a : Word) (c : Bool) (d : BitVec 23), IsProduct a c (fmul32 a c d)) ∧
  ∀ s t : State, s.idx.val < 100 → exec .sppush s = .next t →
    IsProduct s.sampleIn (s.pn.getLsbD (s.idx.val % 11)) t.modOut

/-- SPPUSH on a full frame (42_pn_spreader.md R103): E_FULL and its sticky flag, and nothing else. -/
def Obligations.SppushOnAFullFrameFails : Prop :=
  ∀ s : State, s.idx.val = 100 → exec .sppush s = .next { s with sprCode := .full, sprFFull := true }

/-- 42_pn_spreader.md R107: infinity times 0 and NaN samples set no flag, raise no result code and stop nothing. -/
def Obligations.MultiplySignalsNothing : Prop :=
  ∀ s : State, s.idx.val < 100 → s.sampleIn.extractLsb' 23 8 = 0xFF#8 →
    ∃ t, exec .sppush s = .next t ∧ t.sprCode = .ok ∧ t.sprFIll = s.sprFIll ∧ t.sprFFull = s.sprFFull ∧
      t.hopCode = s.hopCode ∧ t.hopFIll = s.hopFIll ∧ t.hopFUnach = s.hopFUnach

/-- After a push at index `i`, the host reads byte `k` of MOD_OUT at frame byte `1 + 4i + k` (20_memory.md R41, R46). -/
def Obligations.FrameWindowShowsTheLastPush : Prop :=
  ∀ (s t : State) (k : Nat) (rest : List HostEvent), Memory.wf s.modbuf = true → s.idx.val < 100 → k < 4 →
    exec .sppush s = .next t →
    t.NextAccess (.read .byte (BitVec.ofNat 10 (0x200 + (1 + 4 * s.idx.val + k)))) rest →
    step t = .next { t with pending := rest, response := .byte (t.modOut.extractLsb' (8 * k) 8) }

/-- 42_pn_spreader.md R109: while IDX is 100, no step but one that writes SPSTART or drives reset changes IDX or any of
the 401 frame bytes. -/
def Obligations.CompleteFrameIsStable : Prop :=
  ∀ s t : State, s.idx.val = 100 → step s = .next t → ¬ s.nextDrivesReset →
    (∀ j, t.frameByte j = s.frameByte j) ∧
    (t.idx.val = 100 ∨ ∃ rest, s.pending = .access (.write .word 0x40#10 0x00000021#32) :: rest)

/-- The whole of SPREAD100 (42_pn_spreader.md R100, R102, R104; 30_encoding.md R70): from any state with reset released,
its 201 accesses run without an error and leave a complete frame whose sample `i` is the product of `samples[i]` and the
chip `PN[i mod 11]`, least significant byte first. -/
def Obligations.Spread100LaysDownTheWholeFrame : Prop :=
  ∀ (s : State) (samples : List Word) (rest : List HostEvent), Memory.wf s.modbuf = true → s.resetLine = false →
    samples.length = 100 → s.pending = stmtEvents (.spread100 samples) ++ rest →
    ∃ t, run 201 s = .next t ∧ t.pending = rest ∧ t.idx.val = 100 ∧ t.sprCode = .ok ∧ t.frameReady = true ∧
      t.sprFIll = s.sprFIll ∧ t.sprFFull = s.sprFFull ∧ t.frameByte 0 = 0xAA#8 ∧
      ∀ i (h : i < samples.length), ∃ m, IsProduct samples[i] (s.pn.getLsbD (i % 11)) m ∧
        ∀ k, k < 4 → t.frameByte (1 + 4 * i + k) = m.extractLsb' (8 * k) 8

/-- 42_pn_spreader.md R108(a): 100 samples +0.0 leave 400 payload bytes 0x00, whatever PN_SEQ and the old buffer are. -/
def Obligations.AllZeroSignalGivesAZeroPayload : Prop :=
  ∀ (s : State) (rest : List HostEvent), Memory.wf s.modbuf = true → s.resetLine = false →
    s.pending = stmtEvents (.spread100 (List.replicate 100 0x00000000#32)) ++ rest →
    ∃ t, run 201 s = .next t ∧ t.frameReady = true ∧ t.modbuf = [] ∧
      ∀ j, 1 ≤ j → j ≤ 400 → t.frameByte j = 0x00#8

/-! ### State, flags and reset (10_state.md, 60_exceptions.md, 70_reset_and_hazards.md) -/

/-- 10_state.md R34: the state after reset. The seed and the chips are those of the instance. -/
def Obligations.ResetStateHasTheListedValues : Prop :=
  State.reset.AtReset State.reset.params.seed Config.pnSeq

/-- 70_reset_and_hazards.md R160: while reset is asserted no access is admitted; releasing it, and asserting and then
releasing it, leaves every piece of state at its value of 10_state.md R34, with SEED reloaded and PN unchanged. -/
def Obligations.ResetReturnsTheBlockToItsResetState : Prop :=
  (∀ (s : State) (a : Access) (rest : List HostEvent), s.resetLine = true → s.pending = .access a :: rest →
    ∃ c, step s = .fault (.busError c)) ∧
  (∀ (s : State) (rest : List HostEvent), s.resetLine = true → s.pending = .drive false :: rest →
    ∃ t, step s = .next t ∧ t.AtReset s.params.seed s.pn ∧ t.resetLine = false) ∧
  (∀ (s : State) (rest : List HostEvent), s.pending = .drive true :: .drive false :: rest →
    ∃ t, run 2 s = .next t ∧ t.AtReset s.params.seed s.pn ∧ t.resetLine = false ∧ t.params = s.params ∧
      t.pending = rest)

/-- 60_exceptions.md R141: `raise` writes the unit's RESULT.CODE and the paired sticky flag and nothing else; a sticky
flag that is 1 stays 1 over every step that does not drive reset, and all four are 0 when reset is released. -/
def Obligations.RaiseWritesCodeAndStickyFlagOnly : Prop :=
  (∀ s : State,
    raise (.illegal .hopper) s = { s with hopCode := .illegal, hopFIll := true } ∧
    raise (.illegal .spreader) s = { s with sprCode := .illegal, sprFIll := true } ∧
    raise .unachHigh s = { s with hopCode := .unachHigh, hopFUnach := true } ∧
    raise .unachLow s = { s with hopCode := .unachLow, hopFUnach := true } ∧
    raise .full s = { s with sprCode := .full, sprFFull := true }) ∧
  (∀ s t : State, step s = .next t → ¬ s.nextDrivesReset →
    (s.hopFIll = true → t.hopFIll = true) ∧ (s.hopFUnach = true → t.hopFUnach = true) ∧
    (s.sprFIll = true → t.sprFIll = true) ∧ (s.sprFFull = true → t.sprFFull = true)) ∧
  (∀ (s : State) (rest : List HostEvent), s.resetLine = true → s.pending = .drive false :: rest →
    ∃ t, step s = .next t ∧ t.hopFIll = false ∧ t.hopFUnach = false ∧ t.sprFIll = false ∧ t.sprFFull = false)

/-- A RESULT code changes only by a write to its own unit's command register or by reset (10_state.md R17, R25). -/
def Obligations.ResultCodesAreWrittenByTheirOwnPort : Prop :=
  ∀ s t : State, step s = .next t → ¬ s.nextDrivesReset →
    ((∀ w rest, s.pending ≠ .access (.write .word 0x00#10 w) :: rest) → t.hopCode = s.hopCode) ∧
    ((∀ w rest, s.pending ≠ .access (.write .word 0x40#10 w) :: rest) → t.sprCode = s.sprCode)

/-- The parameters and the chips never change, over reset as over every access (10_state.md R20,
70_reset_and_hazards.md R161). -/
def Obligations.ParametersAndChipsNeverChange : Prop :=
  ∀ s t : State, step s = .next t → t.params = s.params ∧ t.pn = s.pn

/-- The invariant of 10_state.md R35 (b), (d), (e), (f) and of MODBUF's form holds after every step from a state that
has it, whether a run reaches that state or not. -/
def Obligations.EveryStepKeepsTheInvariant : Prop :=
  ∀ s t : State, s.Inv → step s = .next t → t.Inv

/-- The state after reset has the invariant. -/
def Obligations.ResetHasTheInvariant : Prop :=
  State.reset.Inv

/-- Two canonical buffers that read the same everywhere are the same data. 10_state.md R24; the canonical form is the
model's. -/
def Obligations.BuffersThatReadAlikeAreEqual : Prop :=
  ∀ m n : Memory, Memory.wf m = true → Memory.wf n = true → (∀ j, Memory.read m j = Memory.read n j) → m = n

/-! ### The bus (10_state.md R30, 20_memory.md) -/

/-- An access gets BusError exactly when 20_memory.md R44 does not admit it; every other access completes. -/
def Obligations.BusErrorExactlyForAccessesNotAdmitted : Prop :=
  ∀ (s : State) (a : Access) (rest : List HostEvent), s.pending = .access a :: rest →
    ((∃ c, step s = .fault (.busError c)) ↔ NotAdmitted s.resetLine a) ∧
    ((∃ t, step s = .next t) ↔ ¬ NotAdmitted s.resetLine a)

/-- A read changes nothing of the block: only the events pending and the answer on the bus (20_memory.md R45). -/
def Obligations.ReadsHaveNoSideEffect : Prop :=
  ∀ (s t : State) (w : Width) (off : Offset) (rest : List HostEvent),
    s.pending = .access (.read w off) :: rest → step s = .next t →
    t = { s with pending := rest, response := t.response }

/-- What a 32-bit read of each readable register answers, at its offset of 10_state.md R30; the bits of TIM_PSC and
TIM_ARR from PSC_BITS and ARR_BITS up read 0 where the registers fit their widths, which every step keeps
(`Obligations.EveryStepKeepsTheInvariant`). HOP_STAT and SPR_STAT are in `Obligations.StatusRegistersShowTheFlags`. -/
def Obligations.RegisterReadsAnswerTheState : Prop :=
  (∀ (s : State) (rest : List HostEvent) (off : Offset) (v : Word),
    s.NextAccess (.read .word off) rest →
    (off, v) ∈ [(0x04#10, s.hopCode.bits.setWidth 32), (0x0C#10, s.lcg), (0x10#10, s.freq.extractLsb' 0 32),
      (0x14#10, s.freq.extractLsb' 32 32), (0x18#10, s.timPsc), (0x1C#10, s.timArr),
      (0x44#10, s.sprCode.bits.setWidth 32), (0x4C#10, s.sampleIn), (0x50#10, BitVec.ofNat 32 s.idx.val),
      (0x54#10, s.modOut), (0x58#10, s.pn.setWidth 32)] →
    step s = .next { s with pending := rest, response := .word v }) ∧
  (∀ (s : State) (rest : List HostEvent), s.NextAccess (.read .word 0x18#10) rest →
    s.timPsc.toNat < 2 ^ s.params.pscBits →
    ∃ v, step s = .next { s with pending := rest, response := .word v } ∧ v = s.timPsc ∧
      ∀ i, s.params.pscBits ≤ i → v.getLsbD i = false) ∧
  (∀ (s : State) (rest : List HostEvent), s.NextAccess (.read .word 0x1C#10) rest →
    s.timArr.toNat < 2 ^ s.params.arrBits →
    ∃ v, step s = .next { s with pending := rest, response := .word v } ∧ v = s.timArr ∧
      ∀ i, s.params.arrBits ≤ i → v.getLsbD i = false)

/-- HOP_STAT and SPR_STAT bit by bit: the flags at their places of 10_state.md sections 2 and 3 (tables of R18 and R26),
every reserved bit 0. -/
def Obligations.StatusRegistersShowTheFlags : Prop :=
  ∀ (s : State) (rest : List HostEvent), s.resetLine = false →
    (s.pending = .access (.read .word 0x08#10) :: rest →
      ∃ v, step s = .next { s with pending := rest, response := .word v } ∧
        ∀ i, v.getLsbD i = if i = 0 then s.outEn else if i = 1 then s.statusSig else if i = 8 then s.hopFIll
          else if i = 9 then s.hopFUnach else false) ∧
    (s.pending = .access (.read .word 0x48#10) :: rest →
      ∃ v, step s = .next { s with pending := rest, response := .word v } ∧
        ∀ i, v.getLsbD i = if i = 0 then decide (s.idx.val = 100) else if i = 8 then s.sprFIll
          else if i = 9 then s.sprFFull else false)

/-- The codes as the host reads them in a RESULT register (60_exceptions.md R140). -/
def Obligations.ResultCodesReadAsListed : Prop :=
  ∀ s : State,
    (s.hopCode = .ok → readReg .hopResult s = 0x00000000#32) ∧
    (s.hopCode = .illegal → readReg .hopResult s = 0x00000001#32) ∧
    (s.hopCode = .unachHigh → readReg .hopResult s = 0x00000002#32) ∧
    (s.hopCode = .unachLow → readReg .hopResult s = 0x00000003#32) ∧
    (s.sprCode = .ok → readReg .sprResult s = 0x00000000#32) ∧
    (s.sprCode = .illegal → readReg .sprResult s = 0x00000001#32) ∧
    (s.sprCode = .full → readReg .sprResult s = 0x00000004#32)

/-- 20_memory.md R46: `MemRead(0x200 + j, 1)` returns FRAME[j] for j = 0 to 400, in every state. -/
def Obligations.FrameWindowReadsEveryByte : Prop :=
  ∀ (s : State) (j : Nat) (rest : List HostEvent), j ≤ 400 →
    s.NextAccess (.read .byte (BitVec.ofNat 10 (0x200 + j))) rest →
    step s = .next { s with pending := rest, response := .byte (if j = 0 then 0xAA#8 else s.modByte (j - 1)) }

/-- The host's operand writes keep all 32 bits, leave the other half of FREQ, and change nothing else (10_state.md R14,
R21, R31). -/
def Obligations.OperandWritesKeepEveryBit : Prop :=
  ∀ (s : State) (v : Word) (rest : List HostEvent),
    (s.NextAccess (.write .word 0x10#10 v) rest →
      ∃ t, step s = .next t ∧ t = { s with pending := rest, response := .done, freq := t.freq } ∧
        t.freq.extractLsb' 0 32 = v ∧ t.freq.extractLsb' 32 32 = s.freq.extractLsb' 32 32) ∧
    (s.NextAccess (.write .word 0x14#10 v) rest →
      ∃ t, step s = .next t ∧ t = { s with pending := rest, response := .done, freq := t.freq } ∧
        t.freq.extractLsb' 32 32 = v ∧ t.freq.extractLsb' 0 32 = s.freq.extractLsb' 0 32) ∧
    (s.NextAccess (.write .word 0x4C#10 v) rest →
      step s = .next { s with pending := rest, response := .done, sampleIn := v })

/-- BASE is a multiple of 0x400 (20_memory.md R53), the host address of an offset is BASE + offset (R54), an address of
BASE to BASE + 0x3FF has that offset, and no other address has one (R40). -/
def Obligations.HostAddressesNameTheOffsets : Prop :=
  Config.base % 0x400 = 0 ∧ (∀ off : Offset, hostAddress off = Config.base + off.toNat) ∧
  (∀ off : Offset, blockOffset (hostAddress off) = some off) ∧
  (∀ (addr : Nat) (off : Offset), blockOffset addr = some off → addr = hostAddress off) ∧
  (∀ addr : Nat, blockOffset addr = none ↔ addr < Config.base ∨ Config.base + 0x3FF < addr)

/-! ### The two units (10_state.md R10, 20_memory.md R51) -/

/-- 10_state.md R10: a command of one unit writes no state of the other, and reads none: what it leaves in its own unit
is the same from any two states that agree on that unit. -/
def Obligations.CommandsStayInTheirUnit : Prop :=
  ∀ (i : Instr) (s t : State), exec i s = .next t →
    (i.port = .hopCmd → SameSpreader s t ∧ t.draws = s.draws ∧
      ∀ s' t' : State, SameHopper s s' → s'.params = s.params → exec i s' = .next t' → SameHopper t t') ∧
    (i.port = .sprCmd → SameHopper s t ∧
      ∀ s' t' : State, SameSpreader s s' → s'.draws = s.draws → exec i s' = .next t' →
        SameSpreader t t' ∧ t'.draws = t.draws)

/-- 20_memory.md R51: every interleaving of Hopper accesses with Spreader accesses gives the same end state: two lists of
accesses with the same Hopper accesses in the same order and the same Spreader accesses in the same order end alike, but
for the last answer on the bus. -/
def Obligations.InterleavingsOfTheUnitsEndAlike : Prop :=
  ∀ (s t : State) (es fs : List HostEvent), AccessesOnly es → AccessesOnly fs →
    es.filter (fun e => bank e = .hopper) = fs.filter (fun e => bank e = .hopper) →
    es.filter (fun e => bank e = .spreader) = fs.filter (fun e => bank e = .spreader) →
    run es.length { s with pending := es } = .next t →
    ∃ u, run fs.length { s with pending := fs } = .next u ∧ u = { t with response := u.response }

/-! ### Host scripts and the host's protocol (30_encoding.md section 6, 43_host_sequences.md) -/

/-- `PROGRAM v` is `SETFREQ v` and `TPROG`: its three accesses run TPROG on FREQ = v (30_encoding.md R70). -/
def Obligations.ProgramRunsTprogOnItsOperand : Prop :=
  ∀ (s : State) (v : DWord) (rest : List HostEvent), s.resetLine = false →
    s.pending = stmtEvents (.program v) ++ rest →
    run 3 s = exec .tprog { s with freq := v, pending := rest, response := .done }

/-- With a clock below 300,000,000 Hz every HOP fails with E_UNACH_HIGH, keeps the old pair, and still takes its LCG step
(70_reset_and_hazards.md R164). -/
def Obligations.HopFailsOnASlowClock : Prop :=
  ∀ (s : State) (rest : List HostEvent), s.resetLine = false → s.params.fClk < 300000000 →
    s.pending = stmtEvents .hop ++ rest →
    ∃ t, run 2 s = .next t ∧ t.hopCode = .unachHigh ∧ t.hopFUnach = true ∧ t.timPsc = s.timPsc ∧
      t.timArr = s.timArr ∧ t.outEn = s.outEn ∧ t.lcg.toNat = (48271 * s.lcg.toNat) % 2147483647

/-- The bytes of a hop report: eight carry FREQ whole, and four lose nothing of a generated frequency. That the report is
least significant byte first is the model's choice (log entries 11 and 16): 43_host_sequences.md R123 only recommends it
and leaves it open. -/
def Obligations.HopReportCarriesTheFrequency : Prop :=
  (∀ f : DWord, (hopReport 8 f).length = 8 ∧
    (hopReport 8 f).foldr (fun b acc => b.toNat + 256 * acc) 0 = f.toNat) ∧
  (∀ s t : State, exec .frqnext s = .next t → (hopReport 4 t.freq).length = 4 ∧
    (hopReport 4 t.freq).foldr (fun b acc => b.toNat + 256 * acc) 0 = t.freq.toNat)

/-- 43_host_sequences.md R121 and R122: one hop executes FRQNEXT and TPROG and reads HOP_RESULT; where the code is OK it
reports the frequency, holds the status signal high for the dwell window and then low; where it is not, it is a hard
error of the configuration class, with no report and the status signal not touched. Either way it takes one LCG step. The
byte order of the report is the model's choice (log entries 11 and 16). -/
def Obligations.HopReportsOrStopsHard : Prop :=
  ∀ (bytes : Nat) (s : State), s.resetLine = false →
    ∃ t u, exec .frqnext s = .next t ∧ exec .tprog t = .next u ∧
      u.lcg.toNat = (48271 * s.lcg.toNat) % 2147483647 ∧ u.statusSig = s.statusSig ∧
      (u.hopCode = .ok → hopCycle bytes s = .next (.reported (hopReport bytes u.freq)
        { u with statusSig := true, response := .done } { u with statusSig := false, response := .done })) ∧
      (u.hopCode ≠ .ok →
        hopCycle bytes s = .next (.hardError (.command u.hopCode.bits)
          { u with response := .word (u.hopCode.bits.setWidth 32) }) ∧
        failureClasses (.command u.hopCode.bits) = [.configurationFatal])

/-- 43_host_sequences.md R125: the transmission of 100 samples completes on the block, for any replies; every frame it
sends is the frame in the block, 401 bytes, the sync byte and the products of R105 with the chips of R102, and the
frames sent and the final state are those of the state machine of R125 started at its first attempt. -/
def Obligations.TransmissionSendsTheSpreadFrame : Prop :=
  ∀ (ceiling : Nat) (s : State) (samples : List Word) (replies : List Reply), Memory.wf s.modbuf = true →
    s.resetLine = false → samples.length = 100 →
    ∃ x, transmitSignal ceiling samples replies s = .next x ∧ x.block.frameReady = true ∧
      (x.sent, x.fate) = transmit ceiling (frameBytes x.block) replies (.sending 0) ∧
      (frameBytes x.block).length = 401 ∧ (frameBytes x.block)[0]? = some 0xAA#8 ∧
      ∀ i (h : i < samples.length), ∃ m, IsProduct samples[i] (s.pn.getLsbD (i % 11)) m ∧
        ∀ k, k < 4 → (frameBytes x.block)[1 + 4 * i + k]? = some (m.extractLsb' (8 * k) 8)

/-- The model's choice of log entry 21: where FRAME_RDY reads 0, here after fewer than 100 samples, the host sends
nothing. 43_host_sequences.md R125 says that it must be 1 and not what the host does where it is not. -/
def Obligations.NothingIsSentOfAnIncompleteFrame : Prop :=
  ∀ (ceiling : Nat) (s : State) (samples : List Word) (replies : List Reply), s.resetLine = false →
    samples.length < 100 →
    ∃ x, transmitSignal ceiling samples replies s = .next x ∧ x.sent = [] ∧ x.fate = .notReady ∧
      x.block.idx.val = samples.length

/-- Every failed attempt is recorded, and past the ceiling the terminal failure too (43_host_sequences.md R126, R127,
R128), each with a class. R129 gives the transient class of a timeout and of a mismatch, and 60_exceptions.md R147 the
classes of the codes. That a wrong byte is a mismatch and a data error both, and that the terminal failure is transient,
is the model's deduction (log entry 22, DEDUCED). -/
def Obligations.FailedAttemptsAreRecordedByClass : Prop :=
  (∀ (ceiling : Nat) (s : State) (fails : List Reply), s.resetLine = false → (∀ r ∈ fails, r.isAck = false) →
    ∃ x, sendAttempts ceiling (fails ++ [.byte 0x55#8]) (.sending 0) s = .next x ∧
      (fails.length ≤ ceiling → x.fate = .acked ∧ x.sent = List.replicate (fails.length + 1) (frameBytes s) ∧
        x.failures = fails.map .acknowledgment) ∧
      (ceiling < fails.length → x.fate = .failed ∧ x.sent = List.replicate (ceiling + 1) (frameBytes s) ∧
        x.failures = (fails.take (ceiling + 1)).map .acknowledgment ++ [.retriesExhausted])) ∧
  failureClasses (.acknowledgment .timeout) = [.transientRetryable] ∧
  (∀ b : Byte, b ≠ 0x55#8 → failureClasses (.acknowledgment (.byte b)) = [.transientRetryable, .dataError]) ∧
  failureClasses .retriesExhausted = [.transientRetryable] ∧
  (∀ code : Byte, failureClasses (.command code) =
    if code = 0x02#8 ∨ code = 0x03#8 then [.configurationFatal]
    else if code = 0x01#8 ∨ code = 0x04#8 then [.programming] else [])

/-- 43_host_sequences.md R127: after `k` failed attempts in a row and then an acknowledgment, the host sends `k + 1`
copies of the one frame and is ACKED if `k` is at most the ceiling, and `ceiling + 1` copies and is FAILED if `k` is
above it. -/
def Obligations.RetryIsBoundedAndByteIdentical : Prop :=
  ∀ (ceiling : Nat) (frame : List Byte) (fails : List Reply), (∀ r ∈ fails, r.isAck = false) →
    (fails.length ≤ ceiling → transmit ceiling frame (fails ++ [.byte 0x55#8]) (.sending 0) =
      (List.replicate (fails.length + 1) frame, .acked)) ∧
    (ceiling < fails.length → transmit ceiling frame (fails ++ [.byte 0x55#8]) (.sending 0) =
      (List.replicate (ceiling + 1) frame, .failed))
end

