-- ==== Sys2Proof/Laws/Decode.lean ====
section
/-! SUPPORT. The fields of a command word determine it. -/

namespace Sys2Proof

/-- A word whose bits 31:9 are 0 is its FN, UNIT and IMM fields put together (30_encoding.md R61). -/
theorem word_of_fields (w : Word) (h9 : fieldHigh w = 0#23) :
    w = fieldAt (fieldFn w) 0 ||| fieldAt (fieldUnit w) 4 ||| fieldAt (BitVec.ofBool (fieldImm w)) 8 := by
  ext i hi
  rcases Nat.lt_or_ge i 4 with h4 | h4
  · have h8 : i < 8 := by omega
    simp [fieldAt, fieldFn, fieldUnit, h4, h8, hi]
  rcases Nat.lt_or_ge i 8 with h8 | h8
  · have a : ¬ i < 4 := by omega
    have b : i - 4 < 4 := by omega
    have c : 4 + (i - 4) = i := by omega
    simp [fieldAt, fieldFn, fieldUnit, h8, a, b, c, hi]
  rcases Nat.lt_or_ge 8 i with h9' | h9'
  · have zero : w[i] = false := by
      have := congrArg (fun v : BitVec 23 => v.getLsbD (i - 9)) h9
      have h2 : i - 9 < 23 := by omega
      have h3 : 9 + (i - 9) = i := by omega
      simpa [fieldHigh, h2, h3, hi] using this
    have a : ¬ i < 4 := by omega
    have b : ¬ i - 4 < 4 := by omega
    have c : ¬ i < 8 := by omega
    have d : i - 8 ≠ 0 := by omega
    simp [fieldAt, fieldFn, fieldUnit, fieldImm, zero, a, b, c, d, hi]
  · have : i = 8 := by omega
    subst this
    simp [fieldAt, fieldFn, fieldUnit, fieldImm]

end Sys2Proof
end

