-- ==== Sys2Proof/Laws/State.lean ====
section
/-! SUPPORT. Each field after each update of the state, by definition, so that no proof unfolds a record update. -/

namespace Sys2Proof.Machine

variable (s : State)

@[simp] theorem State.setLcg_lcg (v : Word) : (s.setLcg v).lcg = v := rfl
@[simp] theorem State.setLcg_freq (v : Word) : (s.setLcg v).freq = s.freq := rfl
@[simp] theorem State.setLcg_timPsc (v : Word) : (s.setLcg v).timPsc = s.timPsc := rfl
@[simp] theorem State.setLcg_timArr (v : Word) : (s.setLcg v).timArr = s.timArr := rfl
@[simp] theorem State.setLcg_outEn (v : Word) : (s.setLcg v).outEn = s.outEn := rfl
@[simp] theorem State.setLcg_statusSig (v : Word) : (s.setLcg v).statusSig = s.statusSig := rfl
@[simp] theorem State.setLcg_hopCode (v : Word) : (s.setLcg v).hopCode = s.hopCode := rfl
@[simp] theorem State.setLcg_hopFIll (v : Word) : (s.setLcg v).hopFIll = s.hopFIll := rfl
@[simp] theorem State.setLcg_hopFUnach (v : Word) : (s.setLcg v).hopFUnach = s.hopFUnach := rfl
@[simp] theorem State.setLcg_pn (v : Word) : (s.setLcg v).pn = s.pn := rfl
@[simp] theorem State.setLcg_sampleIn (v : Word) : (s.setLcg v).sampleIn = s.sampleIn := rfl
@[simp] theorem State.setLcg_idx (v : Word) : (s.setLcg v).idx = s.idx := rfl
@[simp] theorem State.setLcg_modOut (v : Word) : (s.setLcg v).modOut = s.modOut := rfl
@[simp] theorem State.setLcg_modbuf (v : Word) : (s.setLcg v).modbuf = s.modbuf := rfl
@[simp] theorem State.setLcg_sprCode (v : Word) : (s.setLcg v).sprCode = s.sprCode := rfl
@[simp] theorem State.setLcg_sprFIll (v : Word) : (s.setLcg v).sprFIll = s.sprFIll := rfl
@[simp] theorem State.setLcg_sprFFull (v : Word) : (s.setLcg v).sprFFull = s.sprFFull := rfl
@[simp] theorem State.setLcg_params (v : Word) : (s.setLcg v).params = s.params := rfl
@[simp] theorem State.setLcg_resetLine (v : Word) : (s.setLcg v).resetLine = s.resetLine := rfl
@[simp] theorem State.setLcg_pending (v : Word) : (s.setLcg v).pending = s.pending := rfl
@[simp] theorem State.setLcg_response (v : Word) : (s.setLcg v).response = s.response := rfl
@[simp] theorem State.setLcg_draws (v : Word) : (s.setLcg v).draws = s.draws := rfl

@[simp] theorem State.setFreq_lcg (v : DWord) : (s.setFreq v).lcg = s.lcg := rfl
@[simp] theorem State.setFreq_freq (v : DWord) : (s.setFreq v).freq = v := rfl
@[simp] theorem State.setFreq_timPsc (v : DWord) : (s.setFreq v).timPsc = s.timPsc := rfl
@[simp] theorem State.setFreq_timArr (v : DWord) : (s.setFreq v).timArr = s.timArr := rfl
@[simp] theorem State.setFreq_outEn (v : DWord) : (s.setFreq v).outEn = s.outEn := rfl
@[simp] theorem State.setFreq_statusSig (v : DWord) : (s.setFreq v).statusSig = s.statusSig := rfl
@[simp] theorem State.setFreq_hopCode (v : DWord) : (s.setFreq v).hopCode = s.hopCode := rfl
@[simp] theorem State.setFreq_hopFIll (v : DWord) : (s.setFreq v).hopFIll = s.hopFIll := rfl
@[simp] theorem State.setFreq_hopFUnach (v : DWord) : (s.setFreq v).hopFUnach = s.hopFUnach := rfl
@[simp] theorem State.setFreq_pn (v : DWord) : (s.setFreq v).pn = s.pn := rfl
@[simp] theorem State.setFreq_sampleIn (v : DWord) : (s.setFreq v).sampleIn = s.sampleIn := rfl
@[simp] theorem State.setFreq_idx (v : DWord) : (s.setFreq v).idx = s.idx := rfl
@[simp] theorem State.setFreq_modOut (v : DWord) : (s.setFreq v).modOut = s.modOut := rfl
@[simp] theorem State.setFreq_modbuf (v : DWord) : (s.setFreq v).modbuf = s.modbuf := rfl
@[simp] theorem State.setFreq_sprCode (v : DWord) : (s.setFreq v).sprCode = s.sprCode := rfl
@[simp] theorem State.setFreq_sprFIll (v : DWord) : (s.setFreq v).sprFIll = s.sprFIll := rfl
@[simp] theorem State.setFreq_sprFFull (v : DWord) : (s.setFreq v).sprFFull = s.sprFFull := rfl
@[simp] theorem State.setFreq_params (v : DWord) : (s.setFreq v).params = s.params := rfl
@[simp] theorem State.setFreq_resetLine (v : DWord) : (s.setFreq v).resetLine = s.resetLine := rfl
@[simp] theorem State.setFreq_pending (v : DWord) : (s.setFreq v).pending = s.pending := rfl
@[simp] theorem State.setFreq_response (v : DWord) : (s.setFreq v).response = s.response := rfl
@[simp] theorem State.setFreq_draws (v : DWord) : (s.setFreq v).draws = s.draws := rfl

@[simp] theorem State.setTimer_lcg (p a : Word) : (s.setTimer p a).lcg = s.lcg := rfl
@[simp] theorem State.setTimer_freq (p a : Word) : (s.setTimer p a).freq = s.freq := rfl
@[simp] theorem State.setTimer_timPsc (p a : Word) : (s.setTimer p a).timPsc = p := rfl
@[simp] theorem State.setTimer_timArr (p a : Word) : (s.setTimer p a).timArr = a := rfl
@[simp] theorem State.setTimer_outEn (p a : Word) : (s.setTimer p a).outEn = true := rfl
@[simp] theorem State.setTimer_statusSig (p a : Word) : (s.setTimer p a).statusSig = s.statusSig := rfl
@[simp] theorem State.setTimer_hopCode (p a : Word) : (s.setTimer p a).hopCode = s.hopCode := rfl
@[simp] theorem State.setTimer_hopFIll (p a : Word) : (s.setTimer p a).hopFIll = s.hopFIll := rfl
@[simp] theorem State.setTimer_hopFUnach (p a : Word) : (s.setTimer p a).hopFUnach = s.hopFUnach := rfl
@[simp] theorem State.setTimer_pn (p a : Word) : (s.setTimer p a).pn = s.pn := rfl
@[simp] theorem State.setTimer_sampleIn (p a : Word) : (s.setTimer p a).sampleIn = s.sampleIn := rfl
@[simp] theorem State.setTimer_idx (p a : Word) : (s.setTimer p a).idx = s.idx := rfl
@[simp] theorem State.setTimer_modOut (p a : Word) : (s.setTimer p a).modOut = s.modOut := rfl
@[simp] theorem State.setTimer_modbuf (p a : Word) : (s.setTimer p a).modbuf = s.modbuf := rfl
@[simp] theorem State.setTimer_sprCode (p a : Word) : (s.setTimer p a).sprCode = s.sprCode := rfl
@[simp] theorem State.setTimer_sprFIll (p a : Word) : (s.setTimer p a).sprFIll = s.sprFIll := rfl
@[simp] theorem State.setTimer_sprFFull (p a : Word) : (s.setTimer p a).sprFFull = s.sprFFull := rfl
@[simp] theorem State.setTimer_params (p a : Word) : (s.setTimer p a).params = s.params := rfl
@[simp] theorem State.setTimer_resetLine (p a : Word) : (s.setTimer p a).resetLine = s.resetLine := rfl
@[simp] theorem State.setTimer_pending (p a : Word) : (s.setTimer p a).pending = s.pending := rfl
@[simp] theorem State.setTimer_response (p a : Word) : (s.setTimer p a).response = s.response := rfl
@[simp] theorem State.setTimer_draws (p a : Word) : (s.setTimer p a).draws = s.draws := rfl

@[simp] theorem State.setStatusSig_lcg (b : Bool) : (s.setStatusSig b).lcg = s.lcg := rfl
@[simp] theorem State.setStatusSig_freq (b : Bool) : (s.setStatusSig b).freq = s.freq := rfl
@[simp] theorem State.setStatusSig_timPsc (b : Bool) : (s.setStatusSig b).timPsc = s.timPsc := rfl
@[simp] theorem State.setStatusSig_timArr (b : Bool) : (s.setStatusSig b).timArr = s.timArr := rfl
@[simp] theorem State.setStatusSig_outEn (b : Bool) : (s.setStatusSig b).outEn = s.outEn := rfl
@[simp] theorem State.setStatusSig_statusSig (b : Bool) : (s.setStatusSig b).statusSig = b := rfl
@[simp] theorem State.setStatusSig_hopCode (b : Bool) : (s.setStatusSig b).hopCode = s.hopCode := rfl
@[simp] theorem State.setStatusSig_hopFIll (b : Bool) : (s.setStatusSig b).hopFIll = s.hopFIll := rfl
@[simp] theorem State.setStatusSig_hopFUnach (b : Bool) : (s.setStatusSig b).hopFUnach = s.hopFUnach := rfl
@[simp] theorem State.setStatusSig_pn (b : Bool) : (s.setStatusSig b).pn = s.pn := rfl
@[simp] theorem State.setStatusSig_sampleIn (b : Bool) : (s.setStatusSig b).sampleIn = s.sampleIn := rfl
@[simp] theorem State.setStatusSig_idx (b : Bool) : (s.setStatusSig b).idx = s.idx := rfl
@[simp] theorem State.setStatusSig_modOut (b : Bool) : (s.setStatusSig b).modOut = s.modOut := rfl
@[simp] theorem State.setStatusSig_modbuf (b : Bool) : (s.setStatusSig b).modbuf = s.modbuf := rfl
@[simp] theorem State.setStatusSig_sprCode (b : Bool) : (s.setStatusSig b).sprCode = s.sprCode := rfl
@[simp] theorem State.setStatusSig_sprFIll (b : Bool) : (s.setStatusSig b).sprFIll = s.sprFIll := rfl
@[simp] theorem State.setStatusSig_sprFFull (b : Bool) : (s.setStatusSig b).sprFFull = s.sprFFull := rfl
@[simp] theorem State.setStatusSig_params (b : Bool) : (s.setStatusSig b).params = s.params := rfl
@[simp] theorem State.setStatusSig_resetLine (b : Bool) : (s.setStatusSig b).resetLine = s.resetLine := rfl
@[simp] theorem State.setStatusSig_pending (b : Bool) : (s.setStatusSig b).pending = s.pending := rfl
@[simp] theorem State.setStatusSig_response (b : Bool) : (s.setStatusSig b).response = s.response := rfl
@[simp] theorem State.setStatusSig_draws (b : Bool) : (s.setStatusSig b).draws = s.draws := rfl

@[simp] theorem State.setHopCode_lcg (c : ResultCode) : (s.setHopCode c).lcg = s.lcg := rfl
@[simp] theorem State.setHopCode_freq (c : ResultCode) : (s.setHopCode c).freq = s.freq := rfl
@[simp] theorem State.setHopCode_timPsc (c : ResultCode) : (s.setHopCode c).timPsc = s.timPsc := rfl
@[simp] theorem State.setHopCode_timArr (c : ResultCode) : (s.setHopCode c).timArr = s.timArr := rfl
@[simp] theorem State.setHopCode_outEn (c : ResultCode) : (s.setHopCode c).outEn = s.outEn := rfl
@[simp] theorem State.setHopCode_statusSig (c : ResultCode) : (s.setHopCode c).statusSig = s.statusSig := rfl
@[simp] theorem State.setHopCode_hopCode (c : ResultCode) : (s.setHopCode c).hopCode = c := rfl
@[simp] theorem State.setHopCode_hopFIll (c : ResultCode) : (s.setHopCode c).hopFIll = s.hopFIll := rfl
@[simp] theorem State.setHopCode_hopFUnach (c : ResultCode) : (s.setHopCode c).hopFUnach = s.hopFUnach := rfl
@[simp] theorem State.setHopCode_pn (c : ResultCode) : (s.setHopCode c).pn = s.pn := rfl
@[simp] theorem State.setHopCode_sampleIn (c : ResultCode) : (s.setHopCode c).sampleIn = s.sampleIn := rfl
@[simp] theorem State.setHopCode_idx (c : ResultCode) : (s.setHopCode c).idx = s.idx := rfl
@[simp] theorem State.setHopCode_modOut (c : ResultCode) : (s.setHopCode c).modOut = s.modOut := rfl
@[simp] theorem State.setHopCode_modbuf (c : ResultCode) : (s.setHopCode c).modbuf = s.modbuf := rfl
@[simp] theorem State.setHopCode_sprCode (c : ResultCode) : (s.setHopCode c).sprCode = s.sprCode := rfl
@[simp] theorem State.setHopCode_sprFIll (c : ResultCode) : (s.setHopCode c).sprFIll = s.sprFIll := rfl
@[simp] theorem State.setHopCode_sprFFull (c : ResultCode) : (s.setHopCode c).sprFFull = s.sprFFull := rfl
@[simp] theorem State.setHopCode_params (c : ResultCode) : (s.setHopCode c).params = s.params := rfl
@[simp] theorem State.setHopCode_resetLine (c : ResultCode) : (s.setHopCode c).resetLine = s.resetLine := rfl
@[simp] theorem State.setHopCode_pending (c : ResultCode) : (s.setHopCode c).pending = s.pending := rfl
@[simp] theorem State.setHopCode_response (c : ResultCode) : (s.setHopCode c).response = s.response := rfl
@[simp] theorem State.setHopCode_draws (c : ResultCode) : (s.setHopCode c).draws = s.draws := rfl

@[simp] theorem State.setHopFIll_lcg (b : Bool) : (s.setHopFIll b).lcg = s.lcg := rfl
@[simp] theorem State.setHopFIll_freq (b : Bool) : (s.setHopFIll b).freq = s.freq := rfl
@[simp] theorem State.setHopFIll_timPsc (b : Bool) : (s.setHopFIll b).timPsc = s.timPsc := rfl
@[simp] theorem State.setHopFIll_timArr (b : Bool) : (s.setHopFIll b).timArr = s.timArr := rfl
@[simp] theorem State.setHopFIll_outEn (b : Bool) : (s.setHopFIll b).outEn = s.outEn := rfl
@[simp] theorem State.setHopFIll_statusSig (b : Bool) : (s.setHopFIll b).statusSig = s.statusSig := rfl
@[simp] theorem State.setHopFIll_hopCode (b : Bool) : (s.setHopFIll b).hopCode = s.hopCode := rfl
@[simp] theorem State.setHopFIll_hopFIll (b : Bool) : (s.setHopFIll b).hopFIll = b := rfl
@[simp] theorem State.setHopFIll_hopFUnach (b : Bool) : (s.setHopFIll b).hopFUnach = s.hopFUnach := rfl
@[simp] theorem State.setHopFIll_pn (b : Bool) : (s.setHopFIll b).pn = s.pn := rfl
@[simp] theorem State.setHopFIll_sampleIn (b : Bool) : (s.setHopFIll b).sampleIn = s.sampleIn := rfl
@[simp] theorem State.setHopFIll_idx (b : Bool) : (s.setHopFIll b).idx = s.idx := rfl
@[simp] theorem State.setHopFIll_modOut (b : Bool) : (s.setHopFIll b).modOut = s.modOut := rfl
@[simp] theorem State.setHopFIll_modbuf (b : Bool) : (s.setHopFIll b).modbuf = s.modbuf := rfl
@[simp] theorem State.setHopFIll_sprCode (b : Bool) : (s.setHopFIll b).sprCode = s.sprCode := rfl
@[simp] theorem State.setHopFIll_sprFIll (b : Bool) : (s.setHopFIll b).sprFIll = s.sprFIll := rfl
@[simp] theorem State.setHopFIll_sprFFull (b : Bool) : (s.setHopFIll b).sprFFull = s.sprFFull := rfl
@[simp] theorem State.setHopFIll_params (b : Bool) : (s.setHopFIll b).params = s.params := rfl
@[simp] theorem State.setHopFIll_resetLine (b : Bool) : (s.setHopFIll b).resetLine = s.resetLine := rfl
@[simp] theorem State.setHopFIll_pending (b : Bool) : (s.setHopFIll b).pending = s.pending := rfl
@[simp] theorem State.setHopFIll_response (b : Bool) : (s.setHopFIll b).response = s.response := rfl
@[simp] theorem State.setHopFIll_draws (b : Bool) : (s.setHopFIll b).draws = s.draws := rfl

@[simp] theorem State.setHopFUnach_lcg (b : Bool) : (s.setHopFUnach b).lcg = s.lcg := rfl
@[simp] theorem State.setHopFUnach_freq (b : Bool) : (s.setHopFUnach b).freq = s.freq := rfl
@[simp] theorem State.setHopFUnach_timPsc (b : Bool) : (s.setHopFUnach b).timPsc = s.timPsc := rfl
@[simp] theorem State.setHopFUnach_timArr (b : Bool) : (s.setHopFUnach b).timArr = s.timArr := rfl
@[simp] theorem State.setHopFUnach_outEn (b : Bool) : (s.setHopFUnach b).outEn = s.outEn := rfl
@[simp] theorem State.setHopFUnach_statusSig (b : Bool) : (s.setHopFUnach b).statusSig = s.statusSig := rfl
@[simp] theorem State.setHopFUnach_hopCode (b : Bool) : (s.setHopFUnach b).hopCode = s.hopCode := rfl
@[simp] theorem State.setHopFUnach_hopFIll (b : Bool) : (s.setHopFUnach b).hopFIll = s.hopFIll := rfl
@[simp] theorem State.setHopFUnach_hopFUnach (b : Bool) : (s.setHopFUnach b).hopFUnach = b := rfl
@[simp] theorem State.setHopFUnach_pn (b : Bool) : (s.setHopFUnach b).pn = s.pn := rfl
@[simp] theorem State.setHopFUnach_sampleIn (b : Bool) : (s.setHopFUnach b).sampleIn = s.sampleIn := rfl
@[simp] theorem State.setHopFUnach_idx (b : Bool) : (s.setHopFUnach b).idx = s.idx := rfl
@[simp] theorem State.setHopFUnach_modOut (b : Bool) : (s.setHopFUnach b).modOut = s.modOut := rfl
@[simp] theorem State.setHopFUnach_modbuf (b : Bool) : (s.setHopFUnach b).modbuf = s.modbuf := rfl
@[simp] theorem State.setHopFUnach_sprCode (b : Bool) : (s.setHopFUnach b).sprCode = s.sprCode := rfl
@[simp] theorem State.setHopFUnach_sprFIll (b : Bool) : (s.setHopFUnach b).sprFIll = s.sprFIll := rfl
@[simp] theorem State.setHopFUnach_sprFFull (b : Bool) : (s.setHopFUnach b).sprFFull = s.sprFFull := rfl
@[simp] theorem State.setHopFUnach_params (b : Bool) : (s.setHopFUnach b).params = s.params := rfl
@[simp] theorem State.setHopFUnach_resetLine (b : Bool) : (s.setHopFUnach b).resetLine = s.resetLine := rfl
@[simp] theorem State.setHopFUnach_pending (b : Bool) : (s.setHopFUnach b).pending = s.pending := rfl
@[simp] theorem State.setHopFUnach_response (b : Bool) : (s.setHopFUnach b).response = s.response := rfl
@[simp] theorem State.setHopFUnach_draws (b : Bool) : (s.setHopFUnach b).draws = s.draws := rfl

@[simp] theorem State.setSampleIn_lcg (v : Word) : (s.setSampleIn v).lcg = s.lcg := rfl
@[simp] theorem State.setSampleIn_freq (v : Word) : (s.setSampleIn v).freq = s.freq := rfl
@[simp] theorem State.setSampleIn_timPsc (v : Word) : (s.setSampleIn v).timPsc = s.timPsc := rfl
@[simp] theorem State.setSampleIn_timArr (v : Word) : (s.setSampleIn v).timArr = s.timArr := rfl
@[simp] theorem State.setSampleIn_outEn (v : Word) : (s.setSampleIn v).outEn = s.outEn := rfl
@[simp] theorem State.setSampleIn_statusSig (v : Word) : (s.setSampleIn v).statusSig = s.statusSig := rfl
@[simp] theorem State.setSampleIn_hopCode (v : Word) : (s.setSampleIn v).hopCode = s.hopCode := rfl
@[simp] theorem State.setSampleIn_hopFIll (v : Word) : (s.setSampleIn v).hopFIll = s.hopFIll := rfl
@[simp] theorem State.setSampleIn_hopFUnach (v : Word) : (s.setSampleIn v).hopFUnach = s.hopFUnach := rfl
@[simp] theorem State.setSampleIn_pn (v : Word) : (s.setSampleIn v).pn = s.pn := rfl
@[simp] theorem State.setSampleIn_sampleIn (v : Word) : (s.setSampleIn v).sampleIn = v := rfl
@[simp] theorem State.setSampleIn_idx (v : Word) : (s.setSampleIn v).idx = s.idx := rfl
@[simp] theorem State.setSampleIn_modOut (v : Word) : (s.setSampleIn v).modOut = s.modOut := rfl
@[simp] theorem State.setSampleIn_modbuf (v : Word) : (s.setSampleIn v).modbuf = s.modbuf := rfl
@[simp] theorem State.setSampleIn_sprCode (v : Word) : (s.setSampleIn v).sprCode = s.sprCode := rfl
@[simp] theorem State.setSampleIn_sprFIll (v : Word) : (s.setSampleIn v).sprFIll = s.sprFIll := rfl
@[simp] theorem State.setSampleIn_sprFFull (v : Word) : (s.setSampleIn v).sprFFull = s.sprFFull := rfl
@[simp] theorem State.setSampleIn_params (v : Word) : (s.setSampleIn v).params = s.params := rfl
@[simp] theorem State.setSampleIn_resetLine (v : Word) : (s.setSampleIn v).resetLine = s.resetLine := rfl
@[simp] theorem State.setSampleIn_pending (v : Word) : (s.setSampleIn v).pending = s.pending := rfl
@[simp] theorem State.setSampleIn_response (v : Word) : (s.setSampleIn v).response = s.response := rfl
@[simp] theorem State.setSampleIn_draws (v : Word) : (s.setSampleIn v).draws = s.draws := rfl

@[simp] theorem State.setIdx_lcg (i : Fin 101) : (s.setIdx i).lcg = s.lcg := rfl
@[simp] theorem State.setIdx_freq (i : Fin 101) : (s.setIdx i).freq = s.freq := rfl
@[simp] theorem State.setIdx_timPsc (i : Fin 101) : (s.setIdx i).timPsc = s.timPsc := rfl
@[simp] theorem State.setIdx_timArr (i : Fin 101) : (s.setIdx i).timArr = s.timArr := rfl
@[simp] theorem State.setIdx_outEn (i : Fin 101) : (s.setIdx i).outEn = s.outEn := rfl
@[simp] theorem State.setIdx_statusSig (i : Fin 101) : (s.setIdx i).statusSig = s.statusSig := rfl
@[simp] theorem State.setIdx_hopCode (i : Fin 101) : (s.setIdx i).hopCode = s.hopCode := rfl
@[simp] theorem State.setIdx_hopFIll (i : Fin 101) : (s.setIdx i).hopFIll = s.hopFIll := rfl
@[simp] theorem State.setIdx_hopFUnach (i : Fin 101) : (s.setIdx i).hopFUnach = s.hopFUnach := rfl
@[simp] theorem State.setIdx_pn (i : Fin 101) : (s.setIdx i).pn = s.pn := rfl
@[simp] theorem State.setIdx_sampleIn (i : Fin 101) : (s.setIdx i).sampleIn = s.sampleIn := rfl
@[simp] theorem State.setIdx_idx (i : Fin 101) : (s.setIdx i).idx = i := rfl
@[simp] theorem State.setIdx_modOut (i : Fin 101) : (s.setIdx i).modOut = s.modOut := rfl
@[simp] theorem State.setIdx_modbuf (i : Fin 101) : (s.setIdx i).modbuf = s.modbuf := rfl
@[simp] theorem State.setIdx_sprCode (i : Fin 101) : (s.setIdx i).sprCode = s.sprCode := rfl
@[simp] theorem State.setIdx_sprFIll (i : Fin 101) : (s.setIdx i).sprFIll = s.sprFIll := rfl
@[simp] theorem State.setIdx_sprFFull (i : Fin 101) : (s.setIdx i).sprFFull = s.sprFFull := rfl
@[simp] theorem State.setIdx_params (i : Fin 101) : (s.setIdx i).params = s.params := rfl
@[simp] theorem State.setIdx_resetLine (i : Fin 101) : (s.setIdx i).resetLine = s.resetLine := rfl
@[simp] theorem State.setIdx_pending (i : Fin 101) : (s.setIdx i).pending = s.pending := rfl
@[simp] theorem State.setIdx_response (i : Fin 101) : (s.setIdx i).response = s.response := rfl
@[simp] theorem State.setIdx_draws (i : Fin 101) : (s.setIdx i).draws = s.draws := rfl

@[simp] theorem State.setModOut_lcg (v : Word) : (s.setModOut v).lcg = s.lcg := rfl
@[simp] theorem State.setModOut_freq (v : Word) : (s.setModOut v).freq = s.freq := rfl
@[simp] theorem State.setModOut_timPsc (v : Word) : (s.setModOut v).timPsc = s.timPsc := rfl
@[simp] theorem State.setModOut_timArr (v : Word) : (s.setModOut v).timArr = s.timArr := rfl
@[simp] theorem State.setModOut_outEn (v : Word) : (s.setModOut v).outEn = s.outEn := rfl
@[simp] theorem State.setModOut_statusSig (v : Word) : (s.setModOut v).statusSig = s.statusSig := rfl
@[simp] theorem State.setModOut_hopCode (v : Word) : (s.setModOut v).hopCode = s.hopCode := rfl
@[simp] theorem State.setModOut_hopFIll (v : Word) : (s.setModOut v).hopFIll = s.hopFIll := rfl
@[simp] theorem State.setModOut_hopFUnach (v : Word) : (s.setModOut v).hopFUnach = s.hopFUnach := rfl
@[simp] theorem State.setModOut_pn (v : Word) : (s.setModOut v).pn = s.pn := rfl
@[simp] theorem State.setModOut_sampleIn (v : Word) : (s.setModOut v).sampleIn = s.sampleIn := rfl
@[simp] theorem State.setModOut_idx (v : Word) : (s.setModOut v).idx = s.idx := rfl
@[simp] theorem State.setModOut_modOut (v : Word) : (s.setModOut v).modOut = v := rfl
@[simp] theorem State.setModOut_modbuf (v : Word) : (s.setModOut v).modbuf = s.modbuf := rfl
@[simp] theorem State.setModOut_sprCode (v : Word) : (s.setModOut v).sprCode = s.sprCode := rfl
@[simp] theorem State.setModOut_sprFIll (v : Word) : (s.setModOut v).sprFIll = s.sprFIll := rfl
@[simp] theorem State.setModOut_sprFFull (v : Word) : (s.setModOut v).sprFFull = s.sprFFull := rfl
@[simp] theorem State.setModOut_params (v : Word) : (s.setModOut v).params = s.params := rfl
@[simp] theorem State.setModOut_resetLine (v : Word) : (s.setModOut v).resetLine = s.resetLine := rfl
@[simp] theorem State.setModOut_pending (v : Word) : (s.setModOut v).pending = s.pending := rfl
@[simp] theorem State.setModOut_response (v : Word) : (s.setModOut v).response = s.response := rfl
@[simp] theorem State.setModOut_draws (v : Word) : (s.setModOut v).draws = s.draws := rfl

@[simp] theorem State.setModbuf_lcg (m : Memory) : (s.setModbuf m).lcg = s.lcg := rfl
@[simp] theorem State.setModbuf_freq (m : Memory) : (s.setModbuf m).freq = s.freq := rfl
@[simp] theorem State.setModbuf_timPsc (m : Memory) : (s.setModbuf m).timPsc = s.timPsc := rfl
@[simp] theorem State.setModbuf_timArr (m : Memory) : (s.setModbuf m).timArr = s.timArr := rfl
@[simp] theorem State.setModbuf_outEn (m : Memory) : (s.setModbuf m).outEn = s.outEn := rfl
@[simp] theorem State.setModbuf_statusSig (m : Memory) : (s.setModbuf m).statusSig = s.statusSig := rfl
@[simp] theorem State.setModbuf_hopCode (m : Memory) : (s.setModbuf m).hopCode = s.hopCode := rfl
@[simp] theorem State.setModbuf_hopFIll (m : Memory) : (s.setModbuf m).hopFIll = s.hopFIll := rfl
@[simp] theorem State.setModbuf_hopFUnach (m : Memory) : (s.setModbuf m).hopFUnach = s.hopFUnach := rfl
@[simp] theorem State.setModbuf_pn (m : Memory) : (s.setModbuf m).pn = s.pn := rfl
@[simp] theorem State.setModbuf_sampleIn (m : Memory) : (s.setModbuf m).sampleIn = s.sampleIn := rfl
@[simp] theorem State.setModbuf_idx (m : Memory) : (s.setModbuf m).idx = s.idx := rfl
@[simp] theorem State.setModbuf_modOut (m : Memory) : (s.setModbuf m).modOut = s.modOut := rfl
@[simp] theorem State.setModbuf_modbuf (m : Memory) : (s.setModbuf m).modbuf = m := rfl
@[simp] theorem State.setModbuf_sprCode (m : Memory) : (s.setModbuf m).sprCode = s.sprCode := rfl
@[simp] theorem State.setModbuf_sprFIll (m : Memory) : (s.setModbuf m).sprFIll = s.sprFIll := rfl
@[simp] theorem State.setModbuf_sprFFull (m : Memory) : (s.setModbuf m).sprFFull = s.sprFFull := rfl
@[simp] theorem State.setModbuf_params (m : Memory) : (s.setModbuf m).params = s.params := rfl
@[simp] theorem State.setModbuf_resetLine (m : Memory) : (s.setModbuf m).resetLine = s.resetLine := rfl
@[simp] theorem State.setModbuf_pending (m : Memory) : (s.setModbuf m).pending = s.pending := rfl
@[simp] theorem State.setModbuf_response (m : Memory) : (s.setModbuf m).response = s.response := rfl
@[simp] theorem State.setModbuf_draws (m : Memory) : (s.setModbuf m).draws = s.draws := rfl

@[simp] theorem State.setSprCode_lcg (c : ResultCode) : (s.setSprCode c).lcg = s.lcg := rfl
@[simp] theorem State.setSprCode_freq (c : ResultCode) : (s.setSprCode c).freq = s.freq := rfl
@[simp] theorem State.setSprCode_timPsc (c : ResultCode) : (s.setSprCode c).timPsc = s.timPsc := rfl
@[simp] theorem State.setSprCode_timArr (c : ResultCode) : (s.setSprCode c).timArr = s.timArr := rfl
@[simp] theorem State.setSprCode_outEn (c : ResultCode) : (s.setSprCode c).outEn = s.outEn := rfl
@[simp] theorem State.setSprCode_statusSig (c : ResultCode) : (s.setSprCode c).statusSig = s.statusSig := rfl
@[simp] theorem State.setSprCode_hopCode (c : ResultCode) : (s.setSprCode c).hopCode = s.hopCode := rfl
@[simp] theorem State.setSprCode_hopFIll (c : ResultCode) : (s.setSprCode c).hopFIll = s.hopFIll := rfl
@[simp] theorem State.setSprCode_hopFUnach (c : ResultCode) : (s.setSprCode c).hopFUnach = s.hopFUnach := rfl
@[simp] theorem State.setSprCode_pn (c : ResultCode) : (s.setSprCode c).pn = s.pn := rfl
@[simp] theorem State.setSprCode_sampleIn (c : ResultCode) : (s.setSprCode c).sampleIn = s.sampleIn := rfl
@[simp] theorem State.setSprCode_idx (c : ResultCode) : (s.setSprCode c).idx = s.idx := rfl
@[simp] theorem State.setSprCode_modOut (c : ResultCode) : (s.setSprCode c).modOut = s.modOut := rfl
@[simp] theorem State.setSprCode_modbuf (c : ResultCode) : (s.setSprCode c).modbuf = s.modbuf := rfl
@[simp] theorem State.setSprCode_sprCode (c : ResultCode) : (s.setSprCode c).sprCode = c := rfl
@[simp] theorem State.setSprCode_sprFIll (c : ResultCode) : (s.setSprCode c).sprFIll = s.sprFIll := rfl
@[simp] theorem State.setSprCode_sprFFull (c : ResultCode) : (s.setSprCode c).sprFFull = s.sprFFull := rfl
@[simp] theorem State.setSprCode_params (c : ResultCode) : (s.setSprCode c).params = s.params := rfl
@[simp] theorem State.setSprCode_resetLine (c : ResultCode) : (s.setSprCode c).resetLine = s.resetLine := rfl
@[simp] theorem State.setSprCode_pending (c : ResultCode) : (s.setSprCode c).pending = s.pending := rfl
@[simp] theorem State.setSprCode_response (c : ResultCode) : (s.setSprCode c).response = s.response := rfl
@[simp] theorem State.setSprCode_draws (c : ResultCode) : (s.setSprCode c).draws = s.draws := rfl

@[simp] theorem State.setSprFIll_lcg (b : Bool) : (s.setSprFIll b).lcg = s.lcg := rfl
@[simp] theorem State.setSprFIll_freq (b : Bool) : (s.setSprFIll b).freq = s.freq := rfl
@[simp] theorem State.setSprFIll_timPsc (b : Bool) : (s.setSprFIll b).timPsc = s.timPsc := rfl
@[simp] theorem State.setSprFIll_timArr (b : Bool) : (s.setSprFIll b).timArr = s.timArr := rfl
@[simp] theorem State.setSprFIll_outEn (b : Bool) : (s.setSprFIll b).outEn = s.outEn := rfl
@[simp] theorem State.setSprFIll_statusSig (b : Bool) : (s.setSprFIll b).statusSig = s.statusSig := rfl
@[simp] theorem State.setSprFIll_hopCode (b : Bool) : (s.setSprFIll b).hopCode = s.hopCode := rfl
@[simp] theorem State.setSprFIll_hopFIll (b : Bool) : (s.setSprFIll b).hopFIll = s.hopFIll := rfl
@[simp] theorem State.setSprFIll_hopFUnach (b : Bool) : (s.setSprFIll b).hopFUnach = s.hopFUnach := rfl
@[simp] theorem State.setSprFIll_pn (b : Bool) : (s.setSprFIll b).pn = s.pn := rfl
@[simp] theorem State.setSprFIll_sampleIn (b : Bool) : (s.setSprFIll b).sampleIn = s.sampleIn := rfl
@[simp] theorem State.setSprFIll_idx (b : Bool) : (s.setSprFIll b).idx = s.idx := rfl
@[simp] theorem State.setSprFIll_modOut (b : Bool) : (s.setSprFIll b).modOut = s.modOut := rfl
@[simp] theorem State.setSprFIll_modbuf (b : Bool) : (s.setSprFIll b).modbuf = s.modbuf := rfl
@[simp] theorem State.setSprFIll_sprCode (b : Bool) : (s.setSprFIll b).sprCode = s.sprCode := rfl
@[simp] theorem State.setSprFIll_sprFIll (b : Bool) : (s.setSprFIll b).sprFIll = b := rfl
@[simp] theorem State.setSprFIll_sprFFull (b : Bool) : (s.setSprFIll b).sprFFull = s.sprFFull := rfl
@[simp] theorem State.setSprFIll_params (b : Bool) : (s.setSprFIll b).params = s.params := rfl
@[simp] theorem State.setSprFIll_resetLine (b : Bool) : (s.setSprFIll b).resetLine = s.resetLine := rfl
@[simp] theorem State.setSprFIll_pending (b : Bool) : (s.setSprFIll b).pending = s.pending := rfl
@[simp] theorem State.setSprFIll_response (b : Bool) : (s.setSprFIll b).response = s.response := rfl
@[simp] theorem State.setSprFIll_draws (b : Bool) : (s.setSprFIll b).draws = s.draws := rfl

@[simp] theorem State.setSprFFull_lcg (b : Bool) : (s.setSprFFull b).lcg = s.lcg := rfl
@[simp] theorem State.setSprFFull_freq (b : Bool) : (s.setSprFFull b).freq = s.freq := rfl
@[simp] theorem State.setSprFFull_timPsc (b : Bool) : (s.setSprFFull b).timPsc = s.timPsc := rfl
@[simp] theorem State.setSprFFull_timArr (b : Bool) : (s.setSprFFull b).timArr = s.timArr := rfl
@[simp] theorem State.setSprFFull_outEn (b : Bool) : (s.setSprFFull b).outEn = s.outEn := rfl
@[simp] theorem State.setSprFFull_statusSig (b : Bool) : (s.setSprFFull b).statusSig = s.statusSig := rfl
@[simp] theorem State.setSprFFull_hopCode (b : Bool) : (s.setSprFFull b).hopCode = s.hopCode := rfl
@[simp] theorem State.setSprFFull_hopFIll (b : Bool) : (s.setSprFFull b).hopFIll = s.hopFIll := rfl
@[simp] theorem State.setSprFFull_hopFUnach (b : Bool) : (s.setSprFFull b).hopFUnach = s.hopFUnach := rfl
@[simp] theorem State.setSprFFull_pn (b : Bool) : (s.setSprFFull b).pn = s.pn := rfl
@[simp] theorem State.setSprFFull_sampleIn (b : Bool) : (s.setSprFFull b).sampleIn = s.sampleIn := rfl
@[simp] theorem State.setSprFFull_idx (b : Bool) : (s.setSprFFull b).idx = s.idx := rfl
@[simp] theorem State.setSprFFull_modOut (b : Bool) : (s.setSprFFull b).modOut = s.modOut := rfl
@[simp] theorem State.setSprFFull_modbuf (b : Bool) : (s.setSprFFull b).modbuf = s.modbuf := rfl
@[simp] theorem State.setSprFFull_sprCode (b : Bool) : (s.setSprFFull b).sprCode = s.sprCode := rfl
@[simp] theorem State.setSprFFull_sprFIll (b : Bool) : (s.setSprFFull b).sprFIll = s.sprFIll := rfl
@[simp] theorem State.setSprFFull_sprFFull (b : Bool) : (s.setSprFFull b).sprFFull = b := rfl
@[simp] theorem State.setSprFFull_params (b : Bool) : (s.setSprFFull b).params = s.params := rfl
@[simp] theorem State.setSprFFull_resetLine (b : Bool) : (s.setSprFFull b).resetLine = s.resetLine := rfl
@[simp] theorem State.setSprFFull_pending (b : Bool) : (s.setSprFFull b).pending = s.pending := rfl
@[simp] theorem State.setSprFFull_response (b : Bool) : (s.setSprFFull b).response = s.response := rfl
@[simp] theorem State.setSprFFull_draws (b : Bool) : (s.setSprFFull b).draws = s.draws := rfl

@[simp] theorem State.setResetLine_lcg (b : Bool) : (s.setResetLine b).lcg = s.lcg := rfl
@[simp] theorem State.setResetLine_freq (b : Bool) : (s.setResetLine b).freq = s.freq := rfl
@[simp] theorem State.setResetLine_timPsc (b : Bool) : (s.setResetLine b).timPsc = s.timPsc := rfl
@[simp] theorem State.setResetLine_timArr (b : Bool) : (s.setResetLine b).timArr = s.timArr := rfl
@[simp] theorem State.setResetLine_outEn (b : Bool) : (s.setResetLine b).outEn = s.outEn := rfl
@[simp] theorem State.setResetLine_statusSig (b : Bool) : (s.setResetLine b).statusSig = s.statusSig := rfl
@[simp] theorem State.setResetLine_hopCode (b : Bool) : (s.setResetLine b).hopCode = s.hopCode := rfl
@[simp] theorem State.setResetLine_hopFIll (b : Bool) : (s.setResetLine b).hopFIll = s.hopFIll := rfl
@[simp] theorem State.setResetLine_hopFUnach (b : Bool) : (s.setResetLine b).hopFUnach = s.hopFUnach := rfl
@[simp] theorem State.setResetLine_pn (b : Bool) : (s.setResetLine b).pn = s.pn := rfl
@[simp] theorem State.setResetLine_sampleIn (b : Bool) : (s.setResetLine b).sampleIn = s.sampleIn := rfl
@[simp] theorem State.setResetLine_idx (b : Bool) : (s.setResetLine b).idx = s.idx := rfl
@[simp] theorem State.setResetLine_modOut (b : Bool) : (s.setResetLine b).modOut = s.modOut := rfl
@[simp] theorem State.setResetLine_modbuf (b : Bool) : (s.setResetLine b).modbuf = s.modbuf := rfl
@[simp] theorem State.setResetLine_sprCode (b : Bool) : (s.setResetLine b).sprCode = s.sprCode := rfl
@[simp] theorem State.setResetLine_sprFIll (b : Bool) : (s.setResetLine b).sprFIll = s.sprFIll := rfl
@[simp] theorem State.setResetLine_sprFFull (b : Bool) : (s.setResetLine b).sprFFull = s.sprFFull := rfl
@[simp] theorem State.setResetLine_params (b : Bool) : (s.setResetLine b).params = s.params := rfl
@[simp] theorem State.setResetLine_resetLine (b : Bool) : (s.setResetLine b).resetLine = b := rfl
@[simp] theorem State.setResetLine_pending (b : Bool) : (s.setResetLine b).pending = s.pending := rfl
@[simp] theorem State.setResetLine_response (b : Bool) : (s.setResetLine b).response = s.response := rfl
@[simp] theorem State.setResetLine_draws (b : Bool) : (s.setResetLine b).draws = s.draws := rfl

@[simp] theorem State.setPending_lcg (es : List HostEvent) : (s.setPending es).lcg = s.lcg := rfl
@[simp] theorem State.setPending_freq (es : List HostEvent) : (s.setPending es).freq = s.freq := rfl
@[simp] theorem State.setPending_timPsc (es : List HostEvent) : (s.setPending es).timPsc = s.timPsc := rfl
@[simp] theorem State.setPending_timArr (es : List HostEvent) : (s.setPending es).timArr = s.timArr := rfl
@[simp] theorem State.setPending_outEn (es : List HostEvent) : (s.setPending es).outEn = s.outEn := rfl
@[simp] theorem State.setPending_statusSig (es : List HostEvent) : (s.setPending es).statusSig = s.statusSig := rfl
@[simp] theorem State.setPending_hopCode (es : List HostEvent) : (s.setPending es).hopCode = s.hopCode := rfl
@[simp] theorem State.setPending_hopFIll (es : List HostEvent) : (s.setPending es).hopFIll = s.hopFIll := rfl
@[simp] theorem State.setPending_hopFUnach (es : List HostEvent) : (s.setPending es).hopFUnach = s.hopFUnach := rfl
@[simp] theorem State.setPending_pn (es : List HostEvent) : (s.setPending es).pn = s.pn := rfl
@[simp] theorem State.setPending_sampleIn (es : List HostEvent) : (s.setPending es).sampleIn = s.sampleIn := rfl
@[simp] theorem State.setPending_idx (es : List HostEvent) : (s.setPending es).idx = s.idx := rfl
@[simp] theorem State.setPending_modOut (es : List HostEvent) : (s.setPending es).modOut = s.modOut := rfl
@[simp] theorem State.setPending_modbuf (es : List HostEvent) : (s.setPending es).modbuf = s.modbuf := rfl
@[simp] theorem State.setPending_sprCode (es : List HostEvent) : (s.setPending es).sprCode = s.sprCode := rfl
@[simp] theorem State.setPending_sprFIll (es : List HostEvent) : (s.setPending es).sprFIll = s.sprFIll := rfl
@[simp] theorem State.setPending_sprFFull (es : List HostEvent) : (s.setPending es).sprFFull = s.sprFFull := rfl
@[simp] theorem State.setPending_params (es : List HostEvent) : (s.setPending es).params = s.params := rfl
@[simp] theorem State.setPending_resetLine (es : List HostEvent) : (s.setPending es).resetLine = s.resetLine := rfl
@[simp] theorem State.setPending_pending (es : List HostEvent) : (s.setPending es).pending = es := rfl
@[simp] theorem State.setPending_response (es : List HostEvent) : (s.setPending es).response = s.response := rfl
@[simp] theorem State.setPending_draws (es : List HostEvent) : (s.setPending es).draws = s.draws := rfl

@[simp] theorem State.setResponse_lcg (r : Response) : (s.setResponse r).lcg = s.lcg := rfl
@[simp] theorem State.setResponse_freq (r : Response) : (s.setResponse r).freq = s.freq := rfl
@[simp] theorem State.setResponse_timPsc (r : Response) : (s.setResponse r).timPsc = s.timPsc := rfl
@[simp] theorem State.setResponse_timArr (r : Response) : (s.setResponse r).timArr = s.timArr := rfl
@[simp] theorem State.setResponse_outEn (r : Response) : (s.setResponse r).outEn = s.outEn := rfl
@[simp] theorem State.setResponse_statusSig (r : Response) : (s.setResponse r).statusSig = s.statusSig := rfl
@[simp] theorem State.setResponse_hopCode (r : Response) : (s.setResponse r).hopCode = s.hopCode := rfl
@[simp] theorem State.setResponse_hopFIll (r : Response) : (s.setResponse r).hopFIll = s.hopFIll := rfl
@[simp] theorem State.setResponse_hopFUnach (r : Response) : (s.setResponse r).hopFUnach = s.hopFUnach := rfl
@[simp] theorem State.setResponse_pn (r : Response) : (s.setResponse r).pn = s.pn := rfl
@[simp] theorem State.setResponse_sampleIn (r : Response) : (s.setResponse r).sampleIn = s.sampleIn := rfl
@[simp] theorem State.setResponse_idx (r : Response) : (s.setResponse r).idx = s.idx := rfl
@[simp] theorem State.setResponse_modOut (r : Response) : (s.setResponse r).modOut = s.modOut := rfl
@[simp] theorem State.setResponse_modbuf (r : Response) : (s.setResponse r).modbuf = s.modbuf := rfl
@[simp] theorem State.setResponse_sprCode (r : Response) : (s.setResponse r).sprCode = s.sprCode := rfl
@[simp] theorem State.setResponse_sprFIll (r : Response) : (s.setResponse r).sprFIll = s.sprFIll := rfl
@[simp] theorem State.setResponse_sprFFull (r : Response) : (s.setResponse r).sprFFull = s.sprFFull := rfl
@[simp] theorem State.setResponse_params (r : Response) : (s.setResponse r).params = s.params := rfl
@[simp] theorem State.setResponse_resetLine (r : Response) : (s.setResponse r).resetLine = s.resetLine := rfl
@[simp] theorem State.setResponse_pending (r : Response) : (s.setResponse r).pending = s.pending := rfl
@[simp] theorem State.setResponse_response (r : Response) : (s.setResponse r).response = r := rfl
@[simp] theorem State.setResponse_draws (r : Response) : (s.setResponse r).draws = s.draws := rfl

@[simp] theorem State.setDraws_lcg (n : Nat) : (s.setDraws n).lcg = s.lcg := rfl
@[simp] theorem State.setDraws_freq (n : Nat) : (s.setDraws n).freq = s.freq := rfl
@[simp] theorem State.setDraws_timPsc (n : Nat) : (s.setDraws n).timPsc = s.timPsc := rfl
@[simp] theorem State.setDraws_timArr (n : Nat) : (s.setDraws n).timArr = s.timArr := rfl
@[simp] theorem State.setDraws_outEn (n : Nat) : (s.setDraws n).outEn = s.outEn := rfl
@[simp] theorem State.setDraws_statusSig (n : Nat) : (s.setDraws n).statusSig = s.statusSig := rfl
@[simp] theorem State.setDraws_hopCode (n : Nat) : (s.setDraws n).hopCode = s.hopCode := rfl
@[simp] theorem State.setDraws_hopFIll (n : Nat) : (s.setDraws n).hopFIll = s.hopFIll := rfl
@[simp] theorem State.setDraws_hopFUnach (n : Nat) : (s.setDraws n).hopFUnach = s.hopFUnach := rfl
@[simp] theorem State.setDraws_pn (n : Nat) : (s.setDraws n).pn = s.pn := rfl
@[simp] theorem State.setDraws_sampleIn (n : Nat) : (s.setDraws n).sampleIn = s.sampleIn := rfl
@[simp] theorem State.setDraws_idx (n : Nat) : (s.setDraws n).idx = s.idx := rfl
@[simp] theorem State.setDraws_modOut (n : Nat) : (s.setDraws n).modOut = s.modOut := rfl
@[simp] theorem State.setDraws_modbuf (n : Nat) : (s.setDraws n).modbuf = s.modbuf := rfl
@[simp] theorem State.setDraws_sprCode (n : Nat) : (s.setDraws n).sprCode = s.sprCode := rfl
@[simp] theorem State.setDraws_sprFIll (n : Nat) : (s.setDraws n).sprFIll = s.sprFIll := rfl
@[simp] theorem State.setDraws_sprFFull (n : Nat) : (s.setDraws n).sprFFull = s.sprFFull := rfl
@[simp] theorem State.setDraws_params (n : Nat) : (s.setDraws n).params = s.params := rfl
@[simp] theorem State.setDraws_resetLine (n : Nat) : (s.setDraws n).resetLine = s.resetLine := rfl
@[simp] theorem State.setDraws_pending (n : Nat) : (s.setDraws n).pending = s.pending := rfl
@[simp] theorem State.setDraws_response (n : Nat) : (s.setDraws n).response = s.response := rfl
@[simp] theorem State.setDraws_draws (n : Nat) : (s.setDraws n).draws = n := rfl

/-! `appendSample` (42_pn_spreader.md R103): every field. -/

@[simp] theorem State.appendSample_lcg (m : Word) : (s.appendSample m).lcg = s.lcg := rfl
@[simp] theorem State.appendSample_freq (m : Word) : (s.appendSample m).freq = s.freq := rfl
@[simp] theorem State.appendSample_timPsc (m : Word) : (s.appendSample m).timPsc = s.timPsc := rfl
@[simp] theorem State.appendSample_timArr (m : Word) : (s.appendSample m).timArr = s.timArr := rfl
@[simp] theorem State.appendSample_outEn (m : Word) : (s.appendSample m).outEn = s.outEn := rfl
@[simp] theorem State.appendSample_statusSig (m : Word) : (s.appendSample m).statusSig = s.statusSig := rfl
@[simp] theorem State.appendSample_hopCode (m : Word) : (s.appendSample m).hopCode = s.hopCode := rfl
@[simp] theorem State.appendSample_hopFIll (m : Word) : (s.appendSample m).hopFIll = s.hopFIll := rfl
@[simp] theorem State.appendSample_hopFUnach (m : Word) : (s.appendSample m).hopFUnach = s.hopFUnach := rfl
@[simp] theorem State.appendSample_pn (m : Word) : (s.appendSample m).pn = s.pn := rfl
@[simp] theorem State.appendSample_sampleIn (m : Word) : (s.appendSample m).sampleIn = s.sampleIn := rfl
@[simp] theorem State.appendSample_idx (m : Word) : (s.appendSample m).idx = s.idx + 1 := rfl
@[simp] theorem State.appendSample_modOut (m : Word) : (s.appendSample m).modOut = m := rfl
@[simp] theorem State.appendSample_modbuf (m : Word) : (s.appendSample m).modbuf = Memory.storeSample s.modbuf s.idx.val m := rfl
@[simp] theorem State.appendSample_sprCode (m : Word) : (s.appendSample m).sprCode = s.sprCode := rfl
@[simp] theorem State.appendSample_sprFIll (m : Word) : (s.appendSample m).sprFIll = s.sprFIll := rfl
@[simp] theorem State.appendSample_sprFFull (m : Word) : (s.appendSample m).sprFFull = s.sprFFull := rfl
@[simp] theorem State.appendSample_params (m : Word) : (s.appendSample m).params = s.params := rfl
@[simp] theorem State.appendSample_resetLine (m : Word) : (s.appendSample m).resetLine = s.resetLine := rfl
@[simp] theorem State.appendSample_pending (m : Word) : (s.appendSample m).pending = s.pending := rfl
@[simp] theorem State.appendSample_response (m : Word) : (s.appendSample m).response = s.response := rfl
@[simp] theorem State.appendSample_draws (m : Word) : (s.appendSample m).draws = s.draws := rfl

/-! `applyReset` (10_state.md R34): every field. -/

@[simp] theorem applyReset_lcg : (applyReset s).lcg = s.params.seed := rfl
@[simp] theorem applyReset_freq : (applyReset s).freq = 0#64 := rfl
@[simp] theorem applyReset_timPsc : (applyReset s).timPsc = 0#32 := rfl
@[simp] theorem applyReset_timArr : (applyReset s).timArr = 0#32 := rfl
@[simp] theorem applyReset_outEn : (applyReset s).outEn = false := rfl
@[simp] theorem applyReset_statusSig : (applyReset s).statusSig = false := rfl
@[simp] theorem applyReset_hopCode : (applyReset s).hopCode = .ok := rfl
@[simp] theorem applyReset_hopFIll : (applyReset s).hopFIll = false := rfl
@[simp] theorem applyReset_hopFUnach : (applyReset s).hopFUnach = false := rfl
@[simp] theorem applyReset_pn : (applyReset s).pn = s.pn := rfl
@[simp] theorem applyReset_sampleIn : (applyReset s).sampleIn = 0#32 := rfl
@[simp] theorem applyReset_idx : (applyReset s).idx = 0 := rfl
@[simp] theorem applyReset_modOut : (applyReset s).modOut = 0#32 := rfl
@[simp] theorem applyReset_modbuf : (applyReset s).modbuf = [] := rfl
@[simp] theorem applyReset_sprCode : (applyReset s).sprCode = .ok := rfl
@[simp] theorem applyReset_sprFIll : (applyReset s).sprFIll = false := rfl
@[simp] theorem applyReset_sprFFull : (applyReset s).sprFFull = false := rfl
@[simp] theorem applyReset_params : (applyReset s).params = s.params := rfl
@[simp] theorem applyReset_resetLine : (applyReset s).resetLine = s.resetLine := rfl
@[simp] theorem applyReset_pending : (applyReset s).pending = s.pending := rfl
@[simp] theorem applyReset_response : (applyReset s).response = .noAccess := rfl
@[simp] theorem applyReset_draws : (applyReset s).draws = s.draws := rfl

/-! A unit's RESULT.CODE is one field. -/

@[simp] theorem State.setCode_hopper (c : ResultCode) : s.setCode .hopper c = s.setHopCode c := rfl
@[simp] theorem State.setCode_spreader (c : ResultCode) : s.setCode .spreader c = s.setSprCode c := rfl

end Sys2Proof.Machine
end

