-- ==== Sys2Proof/Laws/Memory.lean ====
section
/-! SUPPORT. The byte store: reads after writes, and the canonical form every operation keeps. -/

namespace Sys2Proof.Machine

@[simp] theorem Memory.read_nil (x : Nat) : Memory.read [] x = 0x00#8 := rfl

theorem Memory.wfFrom_cons (lo a : Nat) (v : Byte) (m : Memory) :
    Memory.wfFrom lo ((a, v) :: m) = true ↔ lo ≤ a ∧ a < 400 ∧ v ≠ 0x00#8 ∧ Memory.wfFrom (a + 1) m = true := by
  simp [Memory.wfFrom, and_assoc]

/-- A canonical store may be read as canonical from any lower address. -/
theorem Memory.wfFrom_mono {lo lo' : Nat} {m : Memory} (h : Memory.wfFrom lo m = true) (hle : lo' ≤ lo) :
    Memory.wfFrom lo' m = true := by
  cases m with
  | nil => rfl
  | cons c m =>
    obtain ⟨a, v⟩ := c
    rw [Memory.wfFrom_cons] at h ⊢
    exact ⟨by omega, h.2⟩

/-- Below its first address a canonical store reads 0x00. -/
theorem Memory.read_below {lo x : Nat} {m : Memory} (h : Memory.wfFrom lo m = true) (hx : x < lo) :
    Memory.read m x = 0x00#8 := by
  induction m generalizing lo with
  | nil => rfl
  | cons c m ih =>
    obtain ⟨a, v⟩ := c
    rw [Memory.wfFrom_cons] at h
    rw [Memory.read, if_neg (by omega)]
    exact ih h.2.2.2 (by omega)

/-- At and above 400 a canonical store reads 0x00. -/
theorem Memory.read_above {lo x : Nat} {m : Memory} (h : Memory.wfFrom lo m = true) (hx : 400 ≤ x) :
    Memory.read m x = 0x00#8 := by
  induction m generalizing lo with
  | nil => rfl
  | cons c m ih =>
    obtain ⟨a, v⟩ := c
    rw [Memory.wfFrom_cons] at h
    rw [Memory.read, if_neg (by omega)]
    exact ih h.2.2.2

/-- Reading after a write: the byte written at its address, every other byte as before. -/
theorem Memory.read_write {lo : Nat} {m : Memory} (h : Memory.wfFrom lo m = true) (x : Nat) (b : Byte) (y : Nat) :
    Memory.read (Memory.write m x b) y = if y = x then b else Memory.read m y := by
  induction m generalizing lo with
  | nil =>
    by_cases hb : b = 0x00#8 <;> by_cases hy : y = x <;> simp [Memory.write, Memory.read, hb, hy]
    exact fun hxy => absurd hxy.symm hy
  | cons c m ih =>
    obtain ⟨a, v⟩ := c
    rw [Memory.wfFrom_cons] at h
    obtain ⟨-, -, -, hm⟩ := h
    have below : ∀ z, z ≤ a → Memory.read m z = 0x00#8 := fun z hz => Memory.read_below hm (by omega)
    have cons : ∀ z w (t : Memory), Memory.read ((z, w) :: t) y = if z = y then w else Memory.read t y :=
      fun _ _ _ => rfl
    by_cases hy : y = x
    · subst hy
      rw [if_pos rfl, Memory.write]
      by_cases h1 : y < a
      · rw [if_pos h1]
        by_cases h2 : b = 0x00#8
        · rw [if_pos h2, cons, if_neg (by omega), below y (by omega), h2]
        · rw [if_neg h2, cons, if_pos rfl]
      · rw [if_neg h1]
        by_cases h3 : y = a
        · rw [if_pos h3]
          by_cases h4 : b = 0x00#8
          · rw [if_pos h4, below y (by omega), h4]
          · rw [if_neg h4, cons, if_pos rfl]
        · rw [if_neg h3, cons, if_neg (by omega), ih hm, if_pos rfl]
    · have hy' : ¬ x = y := fun e => hy e.symm
      rw [if_neg hy, Memory.write]
      by_cases h1 : x < a
      · rw [if_pos h1]
        by_cases h2 : b = 0x00#8
        · rw [if_pos h2]
        · rw [if_neg h2, cons, if_neg hy']
      · rw [if_neg h1]
        by_cases h3 : x = a
        · subst h3
          rw [if_pos rfl]
          by_cases h4 : b = 0x00#8
          · rw [if_pos h4, cons, if_neg hy']
          · rw [if_neg h4, cons, cons, if_neg hy', if_neg hy']
        · rw [if_neg h3, cons, cons, ih hm, if_neg hy]

/-- A write inside MODBUF keeps the canonical form. -/
theorem Memory.wfFrom_write {lo : Nat} {m : Memory} (h : Memory.wfFrom lo m = true) {x : Nat} (b : Byte)
    (hlo : lo ≤ x) (hx : x < 400) : Memory.wfFrom lo (Memory.write m x b) = true := by
  induction m generalizing lo with
  | nil =>
    rw [Memory.write]
    split_ifs with hb
    · rfl
    · exact (Memory.wfFrom_cons ..).2 ⟨hlo, hx, hb, rfl⟩
  | cons c m ih =>
    obtain ⟨a, v⟩ := c
    have h' := (Memory.wfFrom_cons ..).1 h
    obtain ⟨h1, h2, h3, h4⟩ := h'
    rw [Memory.write]
    split_ifs with c1 c2 c3 c4
    · exact h
    · exact (Memory.wfFrom_cons ..).2 ⟨hlo, hx, c2, (Memory.wfFrom_cons ..).2 ⟨by omega, h2, h3, h4⟩⟩
    · exact Memory.wfFrom_mono h4 (by omega)
    · exact (Memory.wfFrom_cons ..).2 ⟨hlo, hx, c4, by rw [c3]; exact h4⟩
    · exact (Memory.wfFrom_cons ..).2 ⟨h1, h2, h3, ih h4 (by omega)⟩

/-- A write inside MODBUF keeps `Memory.wf`. -/
theorem Memory.wf_write {m : Memory} (h : Memory.wf m = true) {x : Nat} (b : Byte) (hx : x < 400) :
    Memory.wf (Memory.write m x b) = true :=
  Memory.wfFrom_write h b (Nat.zero_le x) hx

/-- Serialising a sample of a frame keeps `Memory.wf`. -/
theorem Memory.wf_storeSample {mem : Memory} (h : Memory.wf mem = true) {i : Nat} (hi : i < 100) (m : Word) :
    Memory.wf (Memory.storeSample mem i m) = true := by
  unfold Memory.storeSample
  exact wf_write (wf_write (wf_write (wf_write h _ (by omega)) _ (by omega)) _ (by omega)) _ (by omega)

/-- Everything serialising a sample does to the bytes: byte `k` of the sample at `4i + k`, every other byte as before
(42_pn_spreader.md R104). -/
theorem Memory.read_storeSample {mem : Memory} (h : Memory.wf mem = true) {i : Nat} (hi : i < 100) (m : Word)
    (y : Nat) :
    Memory.read (Memory.storeSample mem i m) y =
      if 4 * i ≤ y ∧ y < 4 * i + 4 then wordByte m (y - 4 * i) else Memory.read mem y := by
  have w0 := wf_write h (x := 4 * i) (wordByte m 0) (by omega)
  have w1 := wf_write w0 (x := 4 * i + 1) (wordByte m 1) (by omega)
  have w2 := wf_write w1 (x := 4 * i + 2) (wordByte m 2) (by omega)
  unfold Memory.storeSample
  rw [read_write w2, read_write w1, read_write w0, read_write h]
  by_cases c3 : y = 4 * i + 3
  · subst c3; simp
  by_cases c2 : y = 4 * i + 2
  · subst c2; simp
  by_cases c1 : y = 4 * i + 1
  · subst c1; simp
  by_cases c0 : y = 4 * i
  · subst c0; simp
  rw [if_neg c3, if_neg c2, if_neg c1, if_neg c0, if_neg (by omega)]

/-- The buffer after reset is canonical. -/
theorem Memory.wf_nil : Memory.wf [] = true := rfl

/-- The buffer of `State.reset` is canonical. -/
theorem reset_modbuf_wf : Memory.wf State.reset.modbuf = true := rfl

end Sys2Proof.Machine
end

