-- ==== Sys2Proof/Laws/Ops.lean ====
section
/-! SUPPORT. What each shared operation can do, said once: the exact value of the arithmetic, the shape of an error
and of a reset, the classes of samples and products, the two halves of FREQ. -/

namespace Sys2Proof.Machine

/-! ### Errors and reset -/

@[simp] theorem raise_illegal_hopper (s : State) :
    raise (.illegal .hopper) s = (s.setHopCode .illegal).setHopFIll true := rfl
@[simp] theorem raise_illegal_spreader (s : State) :
    raise (.illegal .spreader) s = (s.setSprCode .illegal).setSprFIll true := rfl
@[simp] theorem raise_unachHigh (s : State) :
    raise .unachHigh s = (s.setHopCode .unachHigh).setHopFUnach true := rfl
@[simp] theorem raise_unachLow (s : State) :
    raise .unachLow s = (s.setHopCode .unachLow).setHopFUnach true := rfl
@[simp] theorem raise_full (s : State) : raise .full s = (s.setSprCode .full).setSprFFull true := rfl

/-- Everything driving the reset input can do. -/
theorem driveReset_cases (b : Bool) (s : State) :
    (b = true ∧ driveReset b s = (applyReset s).setResetLine true) ∨
    (b = false ∧ s.resetLine = true ∧ driveReset b s = (applyReset s).setResetLine false) ∨
    (b = false ∧ s.resetLine = false ∧ driveReset b s = s) := by
  cases b
  · cases h : s.resetLine <;> simp [driveReset, h]
  · simp [driveReset]

/-! ### LCG and range map -/

theorem lcgStep_toNat (x : Word) : (lcgStep x).toNat = 48271 * x.toNat % 2147483647 := by
  have := Nat.mod_lt (48271 * x.toNat) (y := 2147483647) (by decide)
  simp only [lcgStep, BitVec.toNat_ofNat, Config.lcgA, Config.lcgM]
  exact Nat.mod_eq_of_lt (by omega)

theorem lcgStep_le (x : Word) : (lcgStep x).toNat ≤ 2147483646 := by
  have := Nat.mod_lt (48271 * x.toNat) (y := 2147483647) (by decide)
  rw [lcgStep_toNat]
  omega

theorem rangeMap_toNat (raw : Word) : (rangeMap raw).toNat = 300000000 + raw.toNat % 5500000000 := by
  have := Nat.mod_lt raw.toNat (y := 5500000000) (by decide)
  simp only [rangeMap, BitVec.toNat_ofNat, Config.fLo, Config.rangeWidth, Config.fTop]
  exact Nat.mod_eq_of_lt (by omega)

/-! ### PeriodMap -/

/-- Everything PeriodMap can answer. -/
theorem periodMap_cases (p : Params) (f : Nat) :
    (f = 0 ∧ periodMap p f = .unachievable .unachLow) ∨
    (f ≠ 0 ∧ p.fClk / f = 0 ∧ periodMap p f = .unachievable .unachHigh) ∨
    (f ≠ 0 ∧ p.fClk / f ≠ 0 ∧ 2 ^ p.pscBits ≤ (p.fClk / f - 1) / 2 ^ p.arrBits ∧
      periodMap p f = .unachievable .unachLow) ∨
    (f ≠ 0 ∧ p.fClk / f ≠ 0 ∧ (p.fClk / f - 1) / 2 ^ p.arrBits < 2 ^ p.pscBits ∧
      periodMap p f = .pair ((p.fClk / f - 1) / 2 ^ p.arrBits)
        (p.fClk / f / ((p.fClk / f - 1) / 2 ^ p.arrBits + 1) - 1)) := by
  by_cases h1 : f = 0
  · exact .inl ⟨h1, by simp [periodMap, h1]⟩
  by_cases h2 : p.fClk / f = 0
  · exact .inr (.inl ⟨h1, h2, by simp only [periodMap, if_neg h1, if_pos h2]⟩)
  by_cases h3 : 2 ^ p.pscBits ≤ (p.fClk / f - 1) / 2 ^ p.arrBits
  · exact .inr (.inr (.inl ⟨h1, h2, h3, by simp only [periodMap, if_neg h1, if_neg h2, if_pos h3]⟩))
  · exact .inr (.inr (.inr ⟨h1, h2, by omega, by simp only [periodMap, if_neg h1, if_neg h2, if_neg h3]⟩))

/-- What a pair of PeriodMap satisfies (41_timer_period.md R94(a)): it fits both registers. -/
theorem periodMap_pair {p : Params} {f psc arr : Nat} (h : periodMap p f = .pair psc arr) :
    1 ≤ f ∧ 1 ≤ p.fClk / f ∧ psc = (p.fClk / f - 1) / 2 ^ p.arrBits ∧ psc < 2 ^ p.pscBits ∧
      arr = p.fClk / f / (psc + 1) - 1 ∧ 1 ≤ p.fClk / f / (psc + 1) ∧
      p.fClk / f / (psc + 1) ≤ 2 ^ p.arrBits ∧ p.fClk / f ≤ (psc + 1) * 2 ^ p.arrBits := by
  rcases periodMap_cases p f with ⟨-, h2⟩ | ⟨-, -, h3⟩ | ⟨-, -, -, h4⟩ | ⟨h1, h2, h3, h4⟩
  · rw [h] at h2; cases h2
  · rw [h] at h3; cases h3
  · rw [h] at h4; cases h4
  rw [h] at h4
  injection h4 with e1 e2
  rw [← e1] at h3 e2
  generalize p.fClk / f = T at *
  have hM : 0 < 2 ^ p.arrBits := Nat.two_pow_pos _
  generalize 2 ^ p.arrBits = m at *
  have below : T - 1 < (psc + 1) * m := by
    rw [e1]
    exact (Nat.div_lt_iff_lt_mul hM).1 (Nat.lt_succ_self _)
  have small : psc + 1 ≤ T := by
    have := Nat.div_le_self (T - 1) m
    omega
  have upper : T ≤ (psc + 1) * m := by omega
  exact ⟨by omega, by omega, e1, h3, e2, (Nat.one_le_div_iff (by omega)).2 small,
    Nat.div_le_of_le_mul (by linarith), upper⟩

/-- The ranges of the parameters (00_scope.md R7) as arithmetic. -/
theorem params_wf_iff (p : Params) :
    p.wf = true ↔ 1 ≤ p.fClk ∧ p.fClk < 2 ^ 64 ∧ 1 ≤ p.pscBits ∧ p.pscBits ≤ 32 ∧ 1 ≤ p.arrBits ∧ p.arrBits ≤ 32 := by
  simp only [Params.wf, Bool.and_eq_true, decide_eq_true_iff]
  tauto

/-! ### FREQ halves -/

@[simp] theorem freqLow_withFreqLow (f : DWord) (v : Word) : freqLow (withFreqLow f v) = v := by
  ext i hi
  have h : i < 64 := by omega
  simp [freqLow, withFreqLow, h, hi]

@[simp] theorem freqHigh_withFreqLow (f : DWord) (v : Word) : freqHigh (withFreqLow f v) = freqHigh f := by
  ext i hi
  have h : 32 + i < 64 := by omega
  simp [freqHigh, withFreqLow, h, hi]

@[simp] theorem freqLow_withFreqHigh (f : DWord) (v : Word) : freqLow (withFreqHigh f v) = freqLow f := by
  ext i hi
  have h : i < 64 := by omega
  simp [freqLow, withFreqHigh, h, hi]

@[simp] theorem freqHigh_withFreqHigh (f : DWord) (v : Word) : freqHigh (withFreqHigh f v) = v := by
  ext i hi
  have h : 32 + i < 64 := by omega
  simp [freqHigh, withFreqHigh, h, hi]

/-- FREQ is its two halves: a value is known by them. -/
theorem freq_ext {f g : DWord} (hl : freqLow f = freqLow g) (hh : freqHigh f = freqHigh g) : f = g := by
  ext i hi
  by_cases h : i < 32
  · have := congrArg (fun w : Word => w.getLsbD i) hl
    simpa [freqLow, h, hi] using this
  · have h1 : i - 32 < 32 := by omega
    have h2 : 32 + (i - 32) = i := by omega
    have := congrArg (fun w : Word => w.getLsbD (i - 32)) hh
    simpa [freqHigh, h1, h2, hi] using this

/-! ### The product -/

/-- Everything a binary32 product can be. -/
theorem fmul32_cases (a : Word) (c : Bool) (d : BitVec 23) :
    (productIsNaN a c = true ∧ fmul32 a c d = quietNaN d) ∨
    (productIsNaN a c = false ∧ c = true ∧ fmul32 a c d = a) ∨
    (productIsNaN a c = false ∧ c = false ∧ fmul32 a c d = signedZero a) := by
  cases h : productIsNaN a c <;> cases c <;> simp [fmul32, h]

/-- Bit `i` of a quiet NaN: payload, ones, sign (42_pn_spreader.md R106). -/
theorem quietNaN_getLsbD (d : BitVec 23) (i : Nat) :
    (quietNaN d).getLsbD i =
      if i < 22 then d.getLsbD i else if i < 31 then true else if i = 31 then d.getLsbD 22 else false := by
  rw [quietNaN, fieldAt, fieldAt, fieldAt]
  simp only [BitVec.getLsbD_or, BitVec.getLsbD_shiftLeft, BitVec.getLsbD_setWidth, BitVec.getLsbD_allOnes,
    BitVec.getLsbD_extractLsb']
  split_ifs with h1 h2 h3
  · have h31 : i < 31 := by omega
    have h32 : i < 32 := by omega
    simp [h1, h31, h32]
  · have a : i - 22 < 9 := by omega
    have b : i - 22 < 32 := by omega
    have c : i < 32 := by omega
    simp [h1, h2, a, b, c]
  · subst h3; simp
  · have : ¬ i < 32 := by omega
    simp [h1, this]

/-- Bits 30:22 of a quiet NaN are all 1 (42_pn_spreader.md R106). -/
theorem quietNaN_bits (d : BitVec 23) : (quietNaN d).extractLsb' 22 9 = BitVec.allOnes 9 := by
  ext i hi
  rw [BitVec.getElem_extractLsb', quietNaN_getLsbD, if_neg (by omega), if_pos (by omega), BitVec.getElem_allOnes]

/-- Every draw of sign and payload gives its own quiet NaN: none of the 2^23 patterns is left out. -/
theorem quietNaN_injective {d e : BitVec 23} (h : quietNaN d = quietNaN e) : d = e := by
  ext i hi
  by_cases h22 : i < 22
  · have := congrArg (fun w : Word => w.getLsbD i) h
    simpa [quietNaN_getLsbD, h22, hi] using this
  · have hi' : i = 22 := by omega
    subst hi'
    have h31 : (quietNaN d).getLsbD 31 = (quietNaN e).getLsbD 31 := by rw [h]
    rw [quietNaN_getLsbD, quietNaN_getLsbD] at h31
    simpa using h31

/-- A chip is 1.0 or +0.0 (42_pn_spreader.md R102). -/
theorem chipFloat_cases (c : Bool) :
    (c = true ∧ chipFloat c = 0x3F800000#32) ∨ (c = false ∧ chipFloat c = 0x00000000#32) := by
  cases c
  · exact .inr ⟨rfl, rfl⟩
  · exact .inl ⟨rfl, rfl⟩

/-! ### The register map -/

/-- Every register stands at its own offset. -/
theorem regionAt_regOffset (r : Reg) : regionAt (regOffset r) = .register r := by cases r <;> rfl

theorem regAt_some {n : Nat} {r : Reg} (h : regAt n = some r) : n = (regOffset r).toNat := by
  unfold regAt at h
  split at h <;> first | (injection h with h; subst h; rfl) | cases h

/-- Register space holds a register at every multiple of 4 and none elsewhere (10_state.md R30). -/
theorem regAt_none_iff {n : Nat} (h : n < 0x20 ∨ (0x40 ≤ n ∧ n < 0x5C)) : regAt n = none ↔ n % 4 ≠ 0 := by
  have hn : n < 0x5C := by omega
  interval_cases n <;> first | decide | omega

/-- Everything the region of an offset can be (20_memory.md R40, R44(a)). -/
theorem regionAt_cases (off : Offset) :
    (∃ r, regionAt off = .register r ∧ off = regOffset r) ∨
    (regionAt off = .misaligned ∧ (off.toNat < 0x20 ∨ (0x40 ≤ off.toNat ∧ off.toNat < 0x5C)) ∧ off.toNat % 4 ≠ 0) ∨
    (∃ j, regionAt off = .frame j ∧ off.toNat = 0x200 + j ∧ j ≤ 400) ∨
    (regionAt off = .unmapped ∧ ((0x20 ≤ off.toNat ∧ off.toNat < 0x40) ∨ (0x5C ≤ off.toNat ∧ off.toNat < 0x200) ∨
      0x390 < off.toNat)) := by
  by_cases h1 : off.toNat < 0x20 ∨ (0x40 ≤ off.toNat ∧ off.toNat < 0x5C)
  · cases h : regAt off.toNat with
    | some r => exact .inl ⟨r, by simp only [regionAt, if_pos h1, h], BitVec.eq_of_toNat_eq (regAt_some h)⟩
    | none => exact .inr (.inl ⟨by simp only [regionAt, if_pos h1, h], h1, (regAt_none_iff h1).1 h⟩)
  · by_cases h2 : 0x200 ≤ off.toNat ∧ off.toNat ≤ 0x390
    · exact .inr (.inr (.inl ⟨off.toNat - 0x200, by simp only [regionAt, if_neg h1, if_pos h2], by omega, by omega⟩))
    · exact .inr (.inr (.inr ⟨by simp only [regionAt, if_neg h1, if_neg h2], by omega⟩))

/-- Everything bus admission can let through: reset is released, and the access is one of these. -/
theorem admit_ok {line : Bool} {a : Access} {act : BusAction} (h : admission line a = .ok act) :
    line = false ∧
    ((∃ off r, a = .read .word off ∧ regionAt off = .register r ∧ r ≠ .hopCmd ∧ r ≠ .sprCmd ∧ act = .readReg r) ∨
     (∃ off j, a = .read .byte off ∧ regionAt off = .frame j ∧ act = .readFrame j) ∨
     (∃ off v, a = .write .word off v ∧ regionAt off = .register .freqLo ∧ act = .writeFreqLo v) ∨
     (∃ off v, a = .write .word off v ∧ regionAt off = .register .freqHi ∧ act = .writeFreqHi v) ∨
     (∃ off v, a = .write .word off v ∧ regionAt off = .register .sampleIn ∧ act = .writeSampleIn v) ∨
     (∃ off v, a = .write .word off v ∧ regionAt off = .register .hopCmd ∧ act = .command .hopCmd v) ∨
     (∃ off v, a = .write .word off v ∧ regionAt off = .register .sprCmd ∧ act = .command .sprCmd v)) := by
  cases line with
  | true => simp [admission] at h
  | false =>
    refine ⟨rfl, ?_⟩
    cases a with
    | read width off =>
      cases hr : regionAt off with
      | unmapped => simp [admission, admitReleased, hr] at h
      | misaligned => simp [admission, admitReleased, hr] at h
      | frame j =>
        cases width <;> simp [admission, admitReleased, hr] at h
        exact .inr (.inl ⟨off, j, rfl, hr, h.symm⟩)
      | register r =>
        cases width <;> cases r <;> simp [admission, admitReleased, admitRead, hr] at h
        all_goals exact .inl ⟨off, _, rfl, hr, by decide, by decide, h.symm⟩
    | write width off v =>
      cases hr : regionAt off with
      | unmapped => simp [admission, admitReleased, hr] at h
      | misaligned => simp [admission, admitReleased, hr] at h
      | frame j => simp [admission, admitReleased, hr] at h
      | register r =>
        cases width <;> cases r <;> simp [admission, admitReleased, admitWrite, hr] at h <;> subst h <;> simp [hr]

end Sys2Proof.Machine
end

