-- ==== Sys2Proof/Laws/Step.lean ====
section
/-! SUPPORT. What each command, each host event and each step can do, said once. -/

namespace Sys2Proof.Machine

/-! ### The commands, as the state they leave -/

theorem exec_lcgnext (s : State) : exec .lcgnext s = .next ((s.setLcg (lcgStep s.lcg)).setHopCode .ok) := rfl

theorem exec_frqnext (s : State) :
    exec .frqnext s = .next (((s.setLcg (lcgStep s.lcg)).setFreq (rangeMap (lcgStep s.lcg))).setHopCode .ok) := rfl

theorem exec_stsig (imm : Bool) (s : State) : exec (.stsig imm) s = .next ((s.setStatusSig imm).setHopCode .ok) := rfl

theorem exec_spstart (s : State) : exec .spstart s = .next ((s.setIdx 0).setSprCode .ok) := rfl

/-- TPROG where PeriodMap gives a pair. -/
theorem exec_tprog_pair {s : State} {psc arr : Nat} (h : periodMap s.params s.freq.toNat = .pair psc arr) :
    exec .tprog s = .next ((s.setTimer (BitVec.ofNat 32 psc) (BitVec.ofNat 32 arr)).setHopCode .ok) := by
  simp only [exec, execTprog, h, State.setCode_hopper]

/-- TPROG where PeriodMap fails. -/
theorem exec_tprog_fail {s : State} {e : BlockError} (h : periodMap s.params s.freq.toNat = .unachievable e) :
    exec .tprog s = .next (raise e s) := by
  simp only [exec, execTprog, h]

/-- SPPUSH on a full frame. -/
theorem exec_sppush_full {s : State} (h : s.idx.val = 100) : exec .sppush s = .next (raise .full s) := by
  simp only [exec, execSppush, Config.sigLen, if_pos h]

/-- SPPUSH where a sample still fits. -/
theorem exec_sppush_room {s : State} (h : s.idx.val ≠ 100) :
    exec .sppush s =
      .next (((s.appendSample s.product).setDraws s.drawsAfterPush).setSprCode .ok) := by
  simp only [exec, execSppush, Config.sigLen, if_neg h, State.setCode_spreader]

/-- IDX after a push is one more (42_pn_spreader.md R103). -/
theorem idx_succ_val {i : Fin 101} (h : i.val ≠ 100) : (i + 1).val = i.val + 1 := by
  have := i.isLt
  rw [Fin.val_add]
  exact Nat.mod_eq_of_lt (by simp; omega)

/-- Everything a command word can do on a port. -/
theorem runCommand_cases (p : Port) (w : Word) (s : State) :
    (∃ i, decode p w = .ok i ∧ runCommand p w s = exec i s) ∨
    (∃ e, decode p w = .error e ∧ runCommand p w s = .next (raise (.illegal p.unit) s)) := by
  cases h : decode p w with
  | ok i => exact .inl ⟨i, rfl, by simp only [runCommand, h]⟩
  | error e => exact .inr ⟨e, rfl, by simp only [runCommand, h]⟩

/-! ### Steps -/

/-- With nothing pending the block idles. -/
theorem step_idle {s : State} (h : s.pending = []) : step s = .next s := by
  simp only [step, takeEvent, h]

theorem step_drive {s : State} {b : Bool} {rest : List HostEvent} (h : s.pending = .drive b :: rest) :
    step s = .next (driveReset b (s.setPending rest)) := by
  simp only [step, takeEvent, h, runEvent]

theorem step_access {s : State} {a : Access} {rest : List HostEvent} (h : s.pending = .access a :: rest) :
    step s = runAccess a (s.setPending rest) := by
  simp only [step, takeEvent, h, runEvent]

theorem step_not_admitted {s : State} {a : Access} {rest : List HostEvent} {c : BusErrorCause}
    (h : s.pending = .access a :: rest) (ha : admission s.resetLine a = .error c) : step s = .fault (.busError c) := by
  simp only [step_access h, runAccess, State.setPending_resetLine, ha]

theorem step_admitted {s : State} {a : Access} {rest : List HostEvent} {act : BusAction}
    (h : s.pending = .access a :: rest) (ha : admission s.resetLine a = .ok act) :
    step s = perform act (s.setPending rest) := by
  simp only [step_access h, runAccess, State.setPending_resetLine, ha]

/-- Everything a step that answers a next state can have done: idled, driven the reset input, or performed an admitted
access. -/
theorem step_next_cases {s t : State} (h : step s = .next t) :
    (s.pending = [] ∧ t = s) ∨
    (∃ b rest, s.pending = .drive b :: rest ∧ t = driveReset b (s.setPending rest)) ∨
    (∃ a rest act, s.pending = .access a :: rest ∧ admission s.resetLine a = .ok act ∧
      perform act (s.setPending rest) = .next t) := by
  cases hp : s.pending with
  | nil =>
    rw [step_idle hp] at h
    injection h with h
    exact .inl ⟨rfl, h.symm⟩
  | cons e rest =>
    cases e with
    | drive b =>
      rw [step_drive hp] at h
      injection h with h
      exact .inr (.inl ⟨b, rest, rfl, h.symm⟩)
    | access a =>
      cases ha : admission s.resetLine a with
      | error c =>
        rw [step_not_admitted hp ha] at h
        cases h
      | ok act =>
        rw [step_admitted hp ha] at h
        exact .inr (.inr ⟨a, rest, act, rfl, ha, h⟩)

end Sys2Proof.Machine
end

