-- ==== Sys2Proof/Laws/Safety.lean ====
section
/-! SUPPORT. Small facts about the terms of Safety.lean. -/

namespace Sys2Proof.Machine

/-- The invariant speaks of six fields only. -/
theorem State.Inv.of_eq {s t : State} (h : s.Inv) (hp : t.params = s.params) (hm : t.modbuf = s.modbuf)
    (hl : t.lcg = s.lcg) (hpsc : t.timPsc = s.timPsc) (harr : t.timArr = s.timArr) (ho : t.outEn = s.outEn) :
    t.Inv where
  params := by rw [hp]; exact h.params
  modbuf := by rw [hm]; exact h.modbuf
  lcg := by rw [hl, hp]; exact h.lcg
  timPsc := by rw [hpsc, hp]; exact h.timPsc
  timArr := by rw [harr, hp]; exact h.timArr
  timer := by
    have := h.timer
    unfold State.timerConsistent at this ⊢
    rw [hp, hpsc, harr, ho]
    exact this

/-- After reset no pair is programmed, which is consistent. -/
theorem State.AtReset.timerConsistent {s : State} {seed : Word} {pn : BitVec 11} (h : s.AtReset seed pn) :
    s.timerConsistent := by
  unfold State.timerConsistent
  rw [h.outEn]
  exact ⟨h.timPsc, h.timArr⟩

/-- `run` is the host's run of this machine. -/
theorem run_eq_coreRun (k : Nat) (s : State) : run k s = Host.Core.run core k s := by
  induction k generalizing s with
  | zero => rfl
  | succ k ih =>
    have h : core.step s = step s := rfl
    refine Eq.trans ?_ (Host.Core.run.eq_2 core s k).symm
    rw [run]
    cases hs : step s with
    | next t => rw [h.trans hs]; exact ih t
    | fault r => rw [h.trans hs]; rfl
    | refused r => rw [h.trans hs]; rfl

/-- A run of one more step is that step and then the rest of the run. -/
theorem run_succ {k : Nat} {s t : State} (h : step s = .next t) : run (k + 1) s = run k t := by
  rw [run, h]

/-- Everything a run of one more step that answers a next state can have done. -/
theorem run_succ_next {k : Nat} {s u : State} (h : run (k + 1) s = .next u) :
    ∃ t, step s = .next t ∧ run k t = .next u := by
  rw [run] at h
  split at h
  · exact ⟨_, ‹_›, h⟩
  · cases h
  · cases h

/-- A run of no steps. -/
theorem run_zero (s : State) : run 0 s = .next s := rfl

end Sys2Proof.Machine
end

