-- ==== Sys2Proof/Laws/HostSide.lean ====
section
/-! SUPPORT. What an access the host issues can do, and what the host's sequences are made of. -/

namespace Sys2Proof.Machine

/-! ### Outcomes in sequence -/

@[simp] theorem andThen_next {α β : Type} (a : α) (f : α → Host.Outcome β Fault Refusal) :
    andThen (.next a) f = f a := rfl

@[simp] theorem andThen_fault {α β : Type} (r : Fault) (f : α → Host.Outcome β Fault Refusal) :
    andThen (.fault r) f = .fault r := rfl

@[simp] theorem andThen_refused {α β : Type} (r : Refusal) (f : α → Host.Outcome β Fault Refusal) :
    andThen (.refused r) f = .refused r := rfl

theorem andThen_assoc {α β γ : Type} (o : Host.Outcome α Fault Refusal) (f : α → Host.Outcome β Fault Refusal)
    (g : β → Host.Outcome γ Fault Refusal) : andThen (andThen o f) g = andThen o fun a => andThen (f a) g := by
  cases o <;> rfl

/-- Everything a sequence that answers can have done. -/
theorem andThen_eq_next {α β : Type} {o : Host.Outcome α Fault Refusal} {f : α → Host.Outcome β Fault Refusal} {b : β} :
    andThen o f = .next b ↔ ∃ a, o = .next a ∧ f a = .next b := by
  cases o <;> simp

@[simp] theorem issueAll_nil (s : State) : issueAll [] s = .next s := rfl

theorem issueAll_cons (e : HostEvent) (es : List HostEvent) (s : State) :
    issueAll (e :: es) s = andThen (issue e s) (issueAll es) := rfl

theorem issueAll_append (es fs : List HostEvent) (s : State) :
    issueAll (es ++ fs) s = andThen (issueAll es s) (issueAll fs) := by
  induction es generalizing s with
  | nil => rfl
  | cons e es ih =>
    simp only [List.cons_append, issueAll_cons, andThen_assoc]
    congr 1
    funext t
    exact ih t

theorem runStmts_append (as bs : List HostStmt) (s : State) :
    runStmts (as ++ bs) s = andThen (runStmts as s) (runStmts bs) := by
  simp only [runStmts, scriptEvents, List.flatMap_append, issueAll_append]
  rfl

/-! ### What one issued access answers, with reset released -/

/-- Issuing an event is that event on the state as it stands: what is pending stays. -/
theorem issue_eq (e : HostEvent) (s : State) : issue e s = runEvent e s := rfl

theorem issue_admitted {s : State} {a : Access} {act : BusAction} (h : s.resetLine = false)
    (ha : admission false a = .ok act) : issue (.access a) s = perform act s := by
  simp only [issue_eq, runEvent, runAccess, h, ha]

/-- RD of a readable register. -/
theorem issue_rd {s : State} {r : Reg} (h : s.resetLine = false) (h1 : r ≠ .hopCmd) (h2 : r ≠ .sprCmd) :
    issue (rdEvent r) s = .next (s.setResponse (.word (readReg r s))) :=
  issue_admitted h (act := .readReg r) (by cases r <;> first | rfl | contradiction)

/-- A word encodes its instruction on its port. -/
theorem decode_encode_port (i : Instr) : decode i.port (encode i) = .ok i := by
  cases i with
  | stsig imm => cases imm <;> rfl
  | _ => rfl

/-- A command statement is the execution of its command, answered first. -/
theorem issue_command {s : State} (i : Instr) (h : s.resetLine = false) :
    issue (commandEvent i) s = exec i (s.setResponse .done) := by
  have ha : admission false (.write .word (portOffset i.port) (encode i)) = .ok (.command i.port (encode i)) := by
    cases i <;> rfl
  rw [commandEvent, issue_admitted h ha]
  simp only [perform, runCommand, decode_encode_port]

/-- `WR SAMPLE_IN`. -/
theorem issue_sample {s : State} (v : Word) (h : s.resetLine = false) :
    issue (wrEvent .sampleIn v) s = .next ((s.setSampleIn v).setResponse .done) :=
  issue_admitted h (act := .writeSampleIn v) rfl

/-- `RDB FRAME[j]` for the 401 bytes of the frame. -/
theorem issue_rdb {s : State} {j : Nat} (h : s.resetLine = false) (hj : j ≤ 400) :
    issue (rdbEvent j) s = .next (s.setResponse (.byte (s.frameByte j))) := by
  refine issue_admitted h (act := .readFrame j) ?_
  have hn : (BitVec.ofNat 10 (0x200 + j)).toNat = 0x200 + j := by
    rw [BitVec.toNat_ofNat]; exact Nat.mod_eq_of_lt (by omega)
  have hr : regionAt (BitVec.ofNat 10 (0x200 + j)) = .frame j := by
    simp only [regionAt, hn]
    rw [if_neg (by omega), if_pos (by omega)]
    simp
  simp [admission, admitReleased, hr]

/-- A command completes, whatever is pending, and leaves it pending. -/
theorem exec_pending (i : Instr) (s : State) (es : List HostEvent) :
    ∃ t, exec i s = .next t ∧ t.pending = s.pending ∧ exec i (s.setPending es) = .next (t.setPending es) := by
  cases i with
  | lcgnext => exact ⟨_, exec_lcgnext s, rfl, exec_lcgnext _⟩
  | frqnext => exact ⟨_, exec_frqnext s, rfl, exec_frqnext _⟩
  | stsig imm => exact ⟨_, exec_stsig imm s, rfl, exec_stsig imm _⟩
  | spstart => exact ⟨_, exec_spstart s, rfl, exec_spstart _⟩
  | tprog =>
    cases h : periodMap s.params s.freq.toNat with
    | pair psc arr => exact ⟨_, exec_tprog_pair h, rfl, exec_tprog_pair h⟩
    | unachievable e =>
      refine ⟨_, exec_tprog_fail h, ?_, (exec_tprog_fail (s := s.setPending es) h).trans ?_⟩ <;>
        rcases e with (_ | _) | _ | _ | _ <;> rfl
  | sppush =>
    by_cases h : s.idx.val = 100
    · exact ⟨_, exec_sppush_full h, rfl, exec_sppush_full h⟩
    · refine ⟨_, exec_sppush_room h, by simp [State.appendSample], ?_⟩
      have hm : (s.setPending es).product = s.product := rfl
      have hd : (s.setPending es).drawsAfterPush = s.drawsAfterPush := rfl
      have ha : ∀ m, (s.setPending es).appendSample m = (s.appendSample m).setPending es := fun _ => rfl
      rw [exec_sppush_room (s := s.setPending es) h, hm, hd, ha]
      rfl

/-- An admitted access completes, whatever is pending, and leaves it pending. -/
theorem perform_pending (act : BusAction) (s : State) (es : List HostEvent) :
    ∃ t, perform act s = .next t ∧ t.pending = s.pending ∧ perform act (s.setPending es) = .next (t.setPending es) := by
  cases act with
  | command p w =>
    cases hd : decode p w with
    | ok i =>
      simp only [perform, runCommand, hd]
      exact exec_pending i (s.setResponse .done) es
    | error e => cases p <;> simp only [perform, runCommand, hd] <;> exact ⟨_, rfl, rfl, rfl⟩
  | _ => exact ⟨_, rfl, rfl, rfl⟩

/-- Issuing events one after another is the run of the machine that has them pending. -/
theorem run_issueAll (es : List HostEvent) (s : State) :
    run es.length (s.setPending (es ++ s.pending)) = issueAll es s := by
  induction es generalizing s with
  | nil => rfl
  | cons e es ih =>
    have hs : step (s.setPending (e :: es ++ s.pending)) = runEvent e (s.setPending (es ++ s.pending)) := rfl
    rw [issueAll_cons, issue_eq, List.length_cons, run, hs]
    cases e with
    | drive b =>
      simp only [runEvent, andThen_next]
      rw [← ih]
      cases b <;> cases hr : s.resetLine <;> simp [driveReset, hr] <;> rfl
    | access a =>
      simp only [runEvent, runAccess, State.setPending_resetLine]
      cases ha : admission s.resetLine a with
      | error c => rfl
      | ok act =>
        simp only
        obtain ⟨t, h1, hp, h2⟩ := perform_pending act s (es ++ s.pending)
        rw [h1, h2, ← hp]
        exact ih t

/-! ### The frame as the host reads it -/

@[simp] theorem Response.wordData_word (v : Word) : (Response.word v).wordData = v := rfl

@[simp] theorem Response.byteData_byte (b : Byte) : (Response.byte b).byteData = b := by
  simp [Response.byteData, Response.wordData]

@[simp] theorem Response.byteData_resultWord (c : ResultCode) : (Response.word (resultWord c)).byteData = c.bits := by
  cases c <;> rfl

/-- A code is what its byte stands for. -/
@[simp] theorem ResultCode.ofBits_bits (c : ResultCode) : ResultCode.ofBits c.bits = some c := by cases c <;> rfl

theorem readBytes_rdb (js : List Nat) (s : State) (h : s.resetLine = false) (hj : ∀ j ∈ js, j ≤ 400) :
    ∃ r, readBytes (js.map rdbEvent) s = .next ⟨js.map s.frameByte, s.setResponse r⟩ := by
  induction js generalizing s with
  | nil => exact ⟨s.response, rfl⟩
  | cons j js ih =>
    obtain ⟨r, hr⟩ := ih (s.setResponse (.byte (s.frameByte j))) h fun i hi => hj i (List.mem_cons_of_mem _ hi)
    refine ⟨r, ?_⟩
    simp only [List.map_cons, readBytes, issue_rdb h (hj j List.mem_cons_self), andThen_next, hr,
      State.setResponse_response, Response.byteData_byte]
    rfl

/-- READFRAME fetches the 401 bytes of the frame and changes nothing but the bus answer. -/
theorem readFrame_eq (s : State) (h : s.resetLine = false) :
    ∃ r, readFrame s = .next ⟨frameBytes s, s.setResponse r⟩ :=
  readBytes_rdb (List.range Config.frameLen) s h fun j hj => by
    have := List.mem_range.mp hj
    simp only [Config.frameLen, Config.sigLen, Config.sampleBytes] at this
    omega

@[simp] theorem frameBytes_setResponse (s : State) (r : Response) : frameBytes (s.setResponse r) = frameBytes s := rfl

/-! ### The transmission's state machine -/

@[simp] theorem afterAttempt_ack (ceiling n : Nat) {r : Reply} (h : r.isAck = true) :
    afterAttempt ceiling (.sending n) r = .acked := by
  simp [afterAttempt, txNext, h]

theorem afterAttempt_fail (ceiling n : Nat) {r : Reply} (h : r.isAck = false) :
    afterAttempt ceiling (.sending n) r = if n = ceiling then .failed else .sending (n + 1) := by
  simp [afterAttempt, txNext, h]

@[simp] theorem txNext_start (ceiling : Nat) (ready : Bool) :
    txNext ceiling .idle (.start ready) = if ready then .sending 0 else .notReady := rfl

end Sys2Proof.Machine
end

