-- ==== Sys2Proof/Laws/PerInstr.lean ====
section
/-! SUPPORT. Statements about every instruction as syntax, one lemma per constructor. -/

namespace Sys2Proof.Laws

/-- The fields of an instruction's word: bits 31:9 are 0, UNIT is the unit of its port, and bit 8 is 0 but for STSIG
(30_encoding.md R61, R63). -/
def EncodedFields.Statement (i : Instr) : Prop :=
  fieldHigh (encode i) = 0#23 ∧ fieldUnit (encode i) = i.port.unit.code ∧
    ((∃ imm, i = .stsig imm ∧ fieldImm (encode i) = imm) ∨ fieldImm (encode i) = false)

theorem EncodedFields.lcgnext : EncodedFields.Statement .lcgnext := ⟨rfl, rfl, .inr rfl⟩
theorem EncodedFields.frqnext : EncodedFields.Statement .frqnext := ⟨rfl, rfl, .inr rfl⟩
theorem EncodedFields.tprog : EncodedFields.Statement .tprog := ⟨rfl, rfl, .inr rfl⟩
theorem EncodedFields.stsig (imm : Bool) : EncodedFields.Statement (.stsig imm) := by
  cases imm <;> exact ⟨rfl, rfl, .inl ⟨_, rfl, rfl⟩⟩
theorem EncodedFields.spstart : EncodedFields.Statement .spstart := ⟨rfl, rfl, .inr rfl⟩
theorem EncodedFields.sppush : EncodedFields.Statement .sppush := ⟨rfl, rfl, .inr rfl⟩

end Sys2Proof.Laws
end

