-- ==== Sys2Proof/Tests/Slice0.lean ====
section
/-! SUPPORT. The model's own tests: words written out from the spec's encodings, ill-formed terms, one-step vectors of
95_test_vectors.md, and for every statement with hypotheses a concrete state that meets them. -/

namespace Sys2Proof.Tests

open Sys2Proof.Machine

/-! ### Helpers -/

/-- One field of the state an outcome answers. -/
def field {α : Type} (o : Host.Outcome State Fault Refusal) (f : State → α) : Option α :=
  match o with
  | .next s => some (f s)
  | .fault _ => none
  | .refused _ => none

/-- The fault of an outcome. -/
def faultOf (o : Host.Outcome State Fault Refusal) : Option Fault :=
  match o with
  | .next _ => none
  | .fault r => some r
  | .refused _ => none

/-- SEED 123456789, F_CLK 72 MHz, 16-bit timer, EX_PN (95_test_vectors.md). -/
def demo : State :=
  { State.reset with
    lcg := 123456789#32
    pn := 0x247#11
    params := ⟨123456789#32, 72000000, 16, 16⟩ }

/-- `demo` with a clock. -/
def clocked (f : Nat) : State := { demo with params := ⟨123456789#32, f, 16, 16⟩ }

/-- `demo` with one access pending. -/
def facing (a : Access) : State := { demo with pending := [.access a] }

/-- `demo` at index `i` with a sample. -/
def pushing (i : Fin 101) (a : Word) : State := { demo with idx := i, sampleIn := a }

/-! ### Words written out from the encoding (30_encoding.md R61, R64): ZERO, IMM, UNIT, FN -/

theorem test_decode_lcgnext : decode .hopCmd 0b00000000000000000000000000010001#32 = .ok .lcgnext := by decide
theorem test_decode_frqnext : decode .hopCmd 0b00000000000000000000000000010010#32 = .ok .frqnext := by decide
theorem test_decode_tprog : decode .hopCmd 0b00000000000000000000000000010011#32 = .ok .tprog := by decide
theorem test_decode_stsig_off : decode .hopCmd 0b00000000000000000000000000010100#32 = .ok (.stsig false) := by decide
theorem test_decode_stsig_on : decode .hopCmd 0b00000000000000000000000100010100#32 = .ok (.stsig true) := by decide
theorem test_decode_spstart : decode .sprCmd 0b00000000000000000000000000100001#32 = .ok .spstart := by decide
theorem test_decode_sppush : decode .sprCmd 0b00000000000000000000000000100010#32 = .ok .sppush := by decide

theorem test_encode_words :
    [Instr.lcgnext, .frqnext, .tprog, .stsig false, .stsig true, .spstart, .sppush].map encode =
      [0x11#32, 0x12#32, 0x13#32, 0x14#32, 0x114#32, 0x21#32, 0x22#32] := by decide

theorem test_table_words :
    [0x11, 0x12, 0x13, 0x14, 0x114, 0x21, 0x22].map (decodeTableWord 32) =
      [some .lcgnext, some .frqnext, some .tprog, some (.stsig false), some (.stsig true), some .spstart,
        some .sppush] := by decide

/-- The illegal words of vector V7. -/
theorem test_decode_illegal :
    [0x0#32, 0xFFFFFFFF#32, 0x10#32, 0x15#32, 0x1F#32, 0x111#32, 0x112#32, 0x113#32, 0x214#32, 0x80000014#32, 0x21#32,
        0x01#32, 0x31#32].all (fun w => (decode .hopCmd w).toOption.isNone) = true ∧
      [0x0#32, 0x11#32, 0x20#32, 0x23#32, 0x121#32, 0x122#32, 0x10022#32].all
        (fun w => (decode .sprCmd w).toOption.isNone) = true := by decide

/-- Bytes are laid out least significant first, and a command is four of them. -/
theorem test_decode_bytes :
    decodeBytes .hopCmd [0x14#8, 0x01#8, 0x00#8, 0x00#8] = some (.stsig true) ∧
      decodeBytes .hopCmd [0x14#8, 0x01#8] = none := by decide

/-! ### Ill-formed terms are refused -/

theorem test_wf_every_command_word : (Instr.stsig true).wf = true ∧ Instr.sppush.wf = true := by decide
theorem test_wf_frame_index : (HostStmt.rdb 400).wf = true ∧ (HostStmt.rdb 401).wf = false := by decide
theorem test_wf_spread_length :
    (HostStmt.spread100 (List.replicate 100 0#32)).wf = true ∧
      (HostStmt.spread100 (List.replicate 99 0#32)).wf = false := by decide
theorem test_wf_clock : (Params.mk 0#32 1 16 16).wf = true ∧ (Params.mk 0#32 0 16 16).wf = false ∧
    (Params.mk 0#32 (2 ^ 64) 16 16).wf = false := by decide
theorem test_wf_widths : (Params.mk 0#32 1 32 32).wf = true ∧ (Params.mk 0#32 1 0 16).wf = false ∧
    (Params.mk 0#32 1 33 16).wf = false ∧ (Params.mk 0#32 1 16 0).wf = false ∧
    (Params.mk 0#32 1 16 33).wf = false := by decide
theorem test_wf_memory : Memory.wf [(0, 1#8), (399, 2#8)] = true ∧ Memory.wf [(1, 1#8), (0, 2#8)] = false ∧
    Memory.wf [(3, 0#8)] = false ∧ Memory.wf [(400, 1#8)] = false := by decide

/-! ### LCGNEXT and FRQNEXT (vectors V1, V2 and the table of R86) -/

theorem test_lcg_corners :
    [0#32, 1#32, 2#32, 2147483646#32, 2147483647#32, 2147483648#32, 4294967294#32, 4294967295#32].map lcgStep =
      [0#32, 48271#32, 96542#32, 2147435376#32, 0#32, 48271#32, 0#32, 48271#32] := by decide

theorem test_lcg_sequence :
    [115541394#32, 283598515#32, 1523151587#32, 652633738#32, 1845549155#32, 291648857#32, 1426670162#32].map lcgStep =
      [283598515#32, 1523151587#32, 652633738#32, 1845549155#32, 291648857#32, 1426670162#32, 1289797906#32] := by
  decide

theorem test_lcgnext : field (exec .lcgnext demo) State.lcg = some 115541394#32 := by decide
theorem test_frqnext : field (exec .frqnext { demo with freq := BitVec.allOnes 64 }) State.freq =
    some 0x0000000018C4A892#64 := by decide

/-! ### TPROG (the table of R97, vector V3) -/

theorem test_period_72MHz :
    [0, 1, 440, 1000, 1099, 1098, 36000000, 36000001, 72000000, 72000001].map
        (periodMap ⟨0#32, 72000000, 16, 16⟩) =
      [.unachievable .unachLow, .pair 1098 65513, .pair 2 54544, .pair 1 35999, .pair 0 65513, .pair 1 32785,
        .pair 0 1, .pair 0 0, .pair 0 0, .unachievable .unachHigh] := by decide

theorem test_period_6GHz :
    [1, 2, 300000000, 415541394, 1823151587, 5799999999, 6000000001].map (periodMap ⟨0#32, 6000000000, 16, 16⟩) =
      [.unachievable .unachLow, .pair 45776 65534, .pair 0 19, .pair 0 13, .pair 0 2, .pair 0 0,
        .unachievable .unachHigh] := by decide

/-- The boundaries of the divider, by ticks. -/
theorem test_period_ticks :
    [65536, 65537, 131072, 131073, 4294967296, 4294967297].map (fun t => periodMap ⟨0#32, t, 16, 16⟩ 1) =
      [.pair 0 65535, .pair 1 32767, .pair 1 65535, .pair 2 43690, .pair 65535 65535, .unachievable .unachLow] := by
  decide

/-- Failure keeps the old pair (vector V3, the last paragraph). -/
theorem test_tprog_failure_keeps_pair :
    field (exec .tprog { demo with freq := 72000001#64, timPsc := 1#32, timArr := 35999#32, outEn := true })
        (fun t => (readReg .hopResult t, t.timPsc, t.timArr, readReg .hopStat t)) =
      some (0x02#32, 1#32, 35999#32, 0x201#32) := by decide

theorem test_tprog_success :
    field (exec .tprog { demo with freq := 1000#64 })
        (fun t => (readReg .hopResult t, t.timPsc, t.timArr, readReg .hopStat t)) =
      some (0x00#32, 1#32, 0x8C9F#32, 0x001#32) := by decide

/-! ### STSIG (vector V4) -/

theorem test_stsig_on : field (exec (.stsig true) { demo with outEn := true }) (readReg .hopStat) = some 0x3#32 := by
  decide
theorem test_stsig_off : field (exec (.stsig false) { demo with statusSig := true }) (readReg .hopStat) =
    some 0x0#32 := by decide

/-! ### SPSTART and SPPUSH (vectors V5, V6, the examples of R103, R110) -/

theorem test_multiply_by_one :
    [0x00000000#32, 0x80000000#32, 0x3F800000#32, 0xC0200000#32, 0x00000001#32, 0x807FFFFF#32, 0xFF7FFFFF#32,
        0x7F800000#32, 0xFF800000#32].all (fun a => fmul32 a true 0#23 == a) = true := by decide

theorem test_multiply_by_zero :
    [0x00000000#32, 0x80000000#32, 0x3F800000#32, 0xC0200000#32, 0x00000001#32, 0x807FFFFF#32, 0xFF7FFFFF#32].map
        (fun a => fmul32 a false 0#23) =
      [0#32, 0x80000000#32, 0#32, 0x80000000#32, 0#32, 0x80000000#32, 0x80000000#32] := by decide

/-- The draw rows of V5 are NaN products, and the defaults shown there are among the values of the draw. -/
theorem test_multiply_nan :
    (productIsNaN 0x7F800000#32 false && productIsNaN 0xFF800000#32 false && productIsNaN 0x7FC00000#32 true &&
        productIsNaN 0x7F800001#32 true && productIsNaN 0xFFC12345#32 false) = true ∧
      [0x7F800000#32, 0x7F800001#32, 0xFFC12345#32].map defaultNaNResult = [0x7FC00000#32, 0x7FC00001#32, 0xFFC12345#32] ∧
      quietNaN 0#23 = 0x7FC00000#32 ∧ quietNaN 1#23 = 0x7FC00001#32 ∧ quietNaN 0x412345#23 = 0xFFC12345#32 := by decide

theorem test_sppush_chip_one :
    field (exec .sppush (pushing 2 0xC0200000#32)) (fun t => (t.modOut, t.idx, t.modbuf)) =
      some (0xC0200000#32, 3, [(10, 0x20#8), (11, 0xC0#8)]) := by decide

theorem test_sppush_full :
    field (exec .sppush (pushing 100 0x3F800000#32)) (fun t => (readReg .sprResult t, readReg .sprStat t, t.idx)) =
      some (0x04#32, 0x201#32, 100) := by decide

theorem test_spstart_keeps_bytes :
    field (exec .spstart { demo with idx := 100, modbuf := [(3, 0x3F#8)] })
        (fun t => (readReg .sprIdx t, readReg .sprStat t, t.frameByte 4)) = some (0#32, 0#32, 0x3F#8) := by decide

/-! ### The bus (vectors V0, V7, V8) -/

theorem test_pn_bits : readReg .pnBits demo = 0x247#32 := by decide

theorem test_not_admitted :
    [Access.read .word 0x00#10, .read .word 0x40#10, .write .word 0x04#10 0#32, .write .word 0x08#10 0#32,
        .write .word 0x0C#10 123456789#32, .write .word 0x18#10 1#32, .write .word 0x1C#10 1#32,
        .write .word 0x50#10 0#32, .write .word 0x58#10 0x7FF#32, .write .byte 0x200#10 0#32, .read .word 0x200#10,
        .read .half 0x200#10, .read .byte 0x391#10, .read .byte 0x1FF#10, .read .word 0x05C#10, .read .word 0x020#10,
        .read .word 0x3FC#10, .read .byte 0x10#10, .read .half 0x10#10, .write .byte 0x4C#10 0#32,
        .read .word 0x11#10, .read .word 0x0E#10].all (fun a => (faultOf (step (facing a))).isSome) = true := by decide

theorem test_admitted :
    field (step (facing (.read .byte 0x390#10))) State.response = some (.byte 0#8) ∧
      field (step (facing (.write .word 0x10#10 0xDEADBEEF#32))) (readReg .freqLo) = some 0xDEADBEEF#32 := by decide

theorem test_illegal_word_then_flag :
    field (step (facing (.write .word 0x00#10 0#32))) (fun t => (readReg .hopResult t, readReg .hopStat t, t.lcg)) =
      some (1#32, 0x100#32, 123456789#32) := by decide

theorem test_reset_line : field (step { demo with pending := [.drive true], sprFFull := true, resetLine := true })
    (fun t => (t.sprFFull, t.resetLine)) = some (false, true) := by decide

theorem test_ack_and_retry :
    transmit 3 [0xAA#8] [.byte 0x54#8, .timeout, .byte 0x55#8] (txNext 3 .idle (.start true)) =
      (List.replicate 3 [0xAA#8], .acked) := by decide

theorem test_hop_report : hopReport 8 415541394#64 = [0x92#8, 0xA8#8, 0xC4#8, 0x18#8, 0#8, 0#8, 0#8, 0#8] := by decide

/-- What a hop leaves to look at: the report, the status signal in the dwell window and after it, the pair. -/
def hopView (o : Host.Outcome HopRun Fault Refusal) : Option (List Byte × Bool × Bool × Word × Word) :=
  match o with
  | .next (.reported report dwell block) =>
    some (report, dwell.statusSig, block.statusSig, block.timPsc, block.timArr)
  | _ => none

/-- The failure a hop ends in. -/
def hopFailure (o : Host.Outcome HopRun Fault Refusal) : Option HostFailure :=
  match o with
  | .next (.hardError failure _) => some failure
  | _ => none

/-- The first hop of SEED 123456789 (40_lcg_frequency.md R86) with the 6 GHz pair of 41_timer_period.md R97. -/
theorem test_hop_reports : hopView (hopCycle 4 (clocked 6000000000)) =
    some ([0x92#8, 0xA8#8, 0xC4#8, 0x18#8], true, false, 0#32, 13#32) := by decide

/-- A 72 MHz clock is below every generated frequency: E_UNACH_HIGH (43_host_sequences.md R122). -/
theorem test_hop_hard_error : hopFailure (hopCycle 8 demo) = some (.command 0x02#8) := by decide

theorem test_result_codes_of_bits :
    [0x00#8, 0x01#8, 0x02#8, 0x03#8, 0x04#8, 0x05#8, 0xFF#8].map ResultCode.ofBits =
      [some .ok, some .illegal, some .unachHigh, some .unachLow, some .full, none, none] := by decide

/-- FRAME_RDY gates the first attempt (43_host_sequences.md R125). -/
theorem test_frame_ready_gate :
    txNext 3 .idle (.start true) = .sending 0 ∧ txNext 3 .idle (.start false) = .notReady := by decide

/-! ### What the host asks: each row's word runs first after reset -/

theorem test_first_step_runs_each_word :
    [0x11, 0x12, 0x13, 0x14, 0x114, 0x21, 0x22].all
      (fun w => (field (step (State.reset.withFetchWord 32 w)) (fun _ => ())).isSome) = true := by decide

/-! ### Witnesses: a concrete state for the hypotheses of each statement -/

theorem witness_DecodeGivesExactlyTheEncodedInstruction :
    (Instr.stsig true).wf = true ∧ decode .hopCmd 0x114#32 = .ok (.stsig true) := by decide

theorem witness_StepRunsTheDecodedCommand :
    (facing (.write .word (portOffset .sprCmd) 0x22#32)).NextAccess (.write .word (portOffset .sprCmd) 0x22#32) [] ∧
      decode .sprCmd 0x22#32 = .ok .sppush := ⟨⟨rfl, rfl⟩, by decide⟩

theorem witness_IllegalWordsRaiseIllegalOnly_hopper :
    (facing (.write .word 0x00#10 0x214#32)).NextAccess (.write .word 0x00#10 0x214#32) [] ∧
      decode .hopCmd 0x214#32 = .error .highBits := ⟨⟨rfl, rfl⟩, by decide⟩

theorem witness_IllegalWordsRaiseIllegalOnly_spreader :
    (facing (.write .word 0x40#10 0x11#32)).NextAccess (.write .word 0x40#10 0x11#32) [] ∧
      decode .sprCmd 0x11#32 = .error .wrongUnit := ⟨⟨rfl, rfl⟩, by decide⟩

/-- A boundary word for each clause of the list of illegal words: bits 9 and 31, UNIT 0 and 3, FN 0, 5, 15 and 3. -/
theorem witness_IllegalWordsRaiseIllegalOnly_words :
    (0x214#32).extractLsb' 9 23 ≠ 0#23 ∧ (0x80000014#32).extractLsb' 9 23 ≠ 0#23 ∧
      (0x01#32).extractLsb' 4 4 ≠ 0x1#4 ∧ (0x31#32).extractLsb' 4 4 ≠ 0x2#4 ∧
      (0x10#32).extractLsb' 0 4 = 0x0#4 ∧ 0x5#4 ≤ (0x15#32).extractLsb' 0 4 ∧ 0x5#4 ≤ (0x1F#32).extractLsb' 0 4 ∧
      (0x20#32).extractLsb' 0 4 = 0x0#4 ∧ 0x3#4 ≤ (0x23#32).extractLsb' 0 4 := by decide

theorem witness_NoPendingEventChangesNothing : demo.pending = [] := rfl

theorem witness_StepTakesOneEventInOrder : ∃ t, step (facing (.read .word 0x0C#10)) = .next t := ⟨_, rfl⟩

theorem witness_GeneratedFrequencyStaysInTheBand :
    (∃ t, exec .frqnext demo = .next t) ∧ demo.lcg.toNat % 2147483647 ≠ 0 := ⟨⟨_, rfl⟩, by decide⟩

theorem witness_OnlyDegenerateSeedsReachZero :
    (1#32).toNat % 2147483647 ≠ 0 ∧ (4294967295#32).toNat % 2147483647 ≠ 0 ∧ (4294967294#32).toNat % 2147483647 = 0 := by
  decide

theorem witness_LcgIsSeedAndStepCountOnly :
    AccessesOnly ((facing (.write .word 0x00#10 0x12#32)).pending.take 1) ∧
      (∃ t, run 1 (facing (.write .word 0x00#10 0x12#32)) = .next t) ∧
      ((facing (.write .word 0x00#10 0x12#32)).pending.take 1).countP takesLcgStep = 1 := by
  refine ⟨?_, ⟨_, rfl⟩, by decide⟩
  intro e he
  simp only [facing, List.take_succ_cons, List.take_zero, List.mem_singleton] at he
  exact ⟨_, he⟩

theorem witness_LcgIsSeedAndStepCountOnly_after_reset :
    ∃ s t : State, AccessesOnly [commandEvent .frqnext] ∧
      s.pending = .drive true :: .drive false :: ([commandEvent .frqnext] ++ []) ∧ s.lcg ≠ s.params.seed ∧
      run ([commandEvent .frqnext].length + 2) s = .next t :=
  ⟨{ demo with lcg := 5#32, pending := [.drive true, .drive false, commandEvent .frqnext] }, _,
    fun _ he => ⟨_, List.mem_singleton.mp he⟩, rfl, by decide, rfl⟩

/-- The least and the greatest achievable frequency, and ticks at the bound 2^32. -/
theorem witness_TprogProgramsAnAchievableFrequency :
    demo.params.wf = true ∧
    (1 ≤ (1#64).toNat ∧ (1#64).toNat ≤ demo.params.fClk ∧ demo.params.fClk / (1#64).toNat ≤ 2 ^ (16 + 16)) ∧
    (1 ≤ (72000000#64).toNat ∧ (72000000#64).toNat ≤ demo.params.fClk ∧
      demo.params.fClk / (72000000#64).toNat ≤ 2 ^ (16 + 16)) ∧
    ((clocked 4294967296).params.wf = true ∧ (clocked 4294967296).params.fClk / (1#64).toNat ≤ 2 ^ (16 + 16)) := by
  decide

theorem witness_TprogFailsAndProgramsNothing :
    demo.freq.toNat = 0 ∧ demo.params.fClk < (72000001#64).toNat ∧
      (1 ≤ (1#64).toNat ∧ 2 ^ (16 + 16) < (clocked 4294967297).params.fClk / (1#64).toNat) := by decide

theorem witness_PeriodMapLaws :
    demo.params.wf = true ∧ (∃ t, exec .tprog { demo with freq := 1000#64 } = .next t ∧ t.hopCode = .ok) ∧
      (demo.params.fClk < 2 * (36000001#64).toNat ∧ (36000001#64).toNat ≤ demo.params.fClk) ∧
      ∃ t', exec .tprog { demo with freq := 1000#64, params := ⟨5#32, 72000000, 16, 16⟩ } = .next t' :=
  ⟨by decide, ⟨_, rfl, by decide⟩, by decide, ⟨_, rfl⟩⟩

theorem not_nextDrivesReset_facing (a : Access) (s : State) (rest : List HostEvent) (h : s.pending = .access a :: rest) :
    ¬ s.nextDrivesReset := by
  rintro ⟨b, r, h'⟩
  rw [h] at h'
  cases h'

theorem witness_OutputStageStaysEnabledUntilReset :
    (∃ s t : State, step s = .next t ∧ ¬ s.nextDrivesReset ∧ s.outEn = true) ∧
      ∃ s : State, s.resetLine = true ∧ s.pending = .drive false :: [] ∧ s.outEn = true :=
  ⟨⟨{ facing (.write .word 0x00#10 0x13#32) with outEn := true }, _, rfl,
      not_nextDrivesReset_facing _ _ _ rfl, rfl⟩,
    ⟨{ demo with pending := [.drive false], resetLine := true, outEn := true }, rfl, rfl, rfl⟩⟩

theorem witness_OnlyStsigChangesTheStatusSignal :
    ∃ s t : State, step s = .next t ∧ ¬ s.nextDrivesReset ∧ t.statusSig ≠ s.statusSig :=
  ⟨facing (.write .word 0x00#10 0x114#32), _, rfl, not_nextDrivesReset_facing _ _ _ rfl, by decide⟩

theorem witness_RepeatedCommandsChangeNothingMore :
    (∃ t, exec .tprog demo = .next t) ∧ (∃ t, exec (.stsig true) demo = .next t) ∧
      ∃ t, exec .spstart (pushing 7 0#32) = .next t := ⟨⟨_, rfl⟩, ⟨_, rfl⟩, ⟨_, rfl⟩⟩

/-- The first and the last push of a frame. -/
theorem witness_SppushAppendsTheProduct :
    Memory.wf (pushing 0 0x3F800000#32).modbuf = true ∧ (pushing 0 0x3F800000#32).idx.val < 100 ∧
      (pushing 99 0x3F800000#32).idx.val < 100 := by decide

/-- A sample for each clause of the product table. -/
theorem witness_SppushProductFollowsTheTable :
    (∃ t, exec .sppush (pushing 3 0x40200000#32) = .next t) ∧ (pushing 3 0x40200000#32).idx.val < 100 ∧
      ((pushing 3 0#32).pn.getLsbD (3 % 11) = false ∧ (pushing 2 0#32).pn.getLsbD (2 % 11) = true) ∧
      (0x7F7FFFFF#32).extractLsb' 23 8 ≠ 0xFF#8 ∧
      ((0x7F800000#32).extractLsb' 23 8 = 0xFF#8 ∧ (0x7F800000#32).extractLsb' 0 23 = 0#23) ∧
      ((0x7F800001#32).extractLsb' 23 8 = 0xFF#8 ∧ (0x7F800001#32).extractLsb' 0 23 ≠ 0#23) :=
  ⟨⟨_, rfl⟩, by decide⟩

theorem witness_SppushOnAFullFrameFails : (pushing 100 0#32).idx.val = 100 := by decide

theorem witness_MultiplySignalsNothing :
    (pushing 3 0x7F800000#32).idx.val < 100 ∧ (pushing 3 0x7F800000#32).sampleIn.extractLsb' 23 8 = 0xFF#8 := by decide

/-- The last byte of the window, after the last push of a frame. -/
theorem witness_FrameWindowShowsTheLastPush :
    ∃ s t : State, Memory.wf s.modbuf = true ∧ s.idx.val = 99 ∧ exec .sppush s = .next t ∧
      t.NextAccess (.read .byte (BitVec.ofNat 10 (0x200 + (1 + 4 * s.idx.val + 3)))) [] :=
  ⟨{ pushing 99 0x3F800000#32 with pending := [.access (.read .byte 0x390#10)] }, _, rfl, rfl, rfl, ⟨rfl, rfl⟩⟩

theorem witness_CompleteFrameIsStable :
    ∃ s t : State, s.idx.val = 100 ∧ step s = .next t ∧ ¬ s.nextDrivesReset :=
  ⟨{ facing (.write .word 0x40#10 0x22#32) with idx := 100 }, _, rfl, rfl, not_nextDrivesReset_facing _ _ _ rfl⟩

theorem witness_Spread100LaysDownTheWholeFrame :
    ∃ (s : State) (samples : List Word), Memory.wf s.modbuf = true ∧ s.resetLine = false ∧ samples.length = 100 ∧
      s.pending = stmtEvents (.spread100 samples) ++ [] :=
  ⟨{ demo with pending := stmtEvents (.spread100 (List.replicate 100 0x3F800000#32)) ++ [] },
    List.replicate 100 0x3F800000#32, rfl, rfl, by simp, rfl⟩

theorem witness_AllZeroSignalGivesAZeroPayload :
    ∃ s : State, Memory.wf s.modbuf = true ∧ s.modbuf ≠ [] ∧ s.resetLine = false ∧
      s.pending = stmtEvents (.spread100 (List.replicate 100 0x00000000#32)) ++ [] :=
  ⟨{ demo with modbuf := [(399, 0x3F#8)],
               pending := stmtEvents (.spread100 (List.replicate 100 0x00000000#32)) ++ [] },
    by decide, by simp, rfl, rfl⟩

theorem witness_ResetReturnsTheBlockToItsResetState :
    (∃ s : State, s.resetLine = true ∧ s.pending = .access (.read .word 0x0C#10) :: []) ∧
      (∃ s : State, s.resetLine = true ∧ s.pending = .drive false :: [] ∧ s.idx = 100) ∧
      ∃ s : State, s.pending = .drive true :: .drive false :: [] ∧ s.idx = 100 :=
  ⟨⟨{ facing (.read .word 0x0C#10) with resetLine := true }, rfl, rfl⟩,
    ⟨{ demo with pending := [.drive false], resetLine := true, idx := 100 }, rfl, rfl, rfl⟩,
    ⟨{ demo with pending := [.drive true, .drive false], idx := 100 }, rfl, rfl⟩⟩

theorem witness_RaiseWritesCodeAndStickyFlagOnly :
    (∃ s t : State, step s = .next t ∧ ¬ s.nextDrivesReset ∧ s.hopFIll = true ∧ s.hopFUnach = true ∧
        s.sprFIll = true ∧ s.sprFFull = true) ∧ ∃ s : State, s.resetLine = true ∧ s.pending = .drive false :: [] :=
  ⟨⟨{ facing (.write .word 0x40#10 0x21#32) with
        hopFIll := true, hopFUnach := true, sprFIll := true, sprFFull := true },
      _, rfl, not_nextDrivesReset_facing _ _ _ rfl, rfl, rfl, rfl, rfl⟩,
    ⟨{ demo with pending := [.drive false], resetLine := true }, rfl, rfl⟩⟩

theorem witness_ResultCodesAreWrittenByTheirOwnPort :
    ∃ s t : State, step s = .next t ∧ ¬ s.nextDrivesReset ∧
      (∀ w rest, s.pending ≠ .access (.write .word 0x00#10 w) :: rest) ∧
      ∀ w rest, s.pending ≠ .access (.write .word 0x40#10 w) :: rest :=
  ⟨facing (.read .word 0x04#10), _, rfl, not_nextDrivesReset_facing _ _ _ rfl, by simp [facing], by simp [facing]⟩

theorem witness_ParametersAndChipsNeverChange :
    ∃ s t : State, step s = .next t ∧ s.pending = .drive false :: [] ∧ s.resetLine = true :=
  ⟨{ demo with pending := [.drive false], resetLine := true }, _, rfl, rfl, rfl⟩

theorem demo_inv : demo.Inv where
  params := by decide
  modbuf := by decide
  lcg := .inl rfl
  timPsc := by decide
  timArr := by decide
  timer := ⟨rfl, rfl⟩

theorem witness_EveryStepKeepsTheInvariant : demo.Inv ∧ ∃ t, step demo = .next t := ⟨demo_inv, ⟨_, rfl⟩⟩

theorem witness_BuffersThatReadAlikeAreEqual :
    Memory.wf [(0, 0xAA#8), (399, 0x55#8)] = true ∧
      ∀ j, Memory.read [(0, 0xAA#8), (399, 0x55#8)] j = Memory.read (Memory.write [(0, 0xAA#8)] 399 0x55#8) j :=
  ⟨by decide, fun _ => rfl⟩

/-- Accesses at the edges of each clause of R44, and the accesses next to them that are admitted. -/
theorem witness_BusErrorExactlyForAccessesNotAdmitted :
    ([0x020, 0x03F, 0x05C, 0x1FF, 0x391, 0x3FF].all fun n =>
        (faultOf (step (facing (.read .byte (BitVec.ofNat 10 n))))).isSome) = true ∧
      ([0x000, 0x01C, 0x040, 0x058].all fun n =>
        (faultOf (step (facing (.read .half (BitVec.ofNat 10 n))))).isSome) = true ∧
      ([0x01F, 0x05B].all fun n => (faultOf (step (facing (.read .word (BitVec.ofNat 10 n))))).isSome) = true ∧
      ([0x200, 0x390].all fun n => (faultOf (step (facing (.write .byte (BitVec.ofNat 10 n) 0#32)))).isSome) = true ∧
      ([0x200, 0x390].all fun n => (faultOf (step (facing (.read .byte (BitVec.ofNat 10 n))))).isNone) = true ∧
      ([0x004, 0x01C, 0x044, 0x058].all fun n =>
        (faultOf (step (facing (.read .word (BitVec.ofNat 10 n))))).isNone) = true := by decide

theorem witness_ReadsHaveNoSideEffect :
    ∃ t, step (facing (.read .word 0x08#10)) = .next t ∧
      (facing (.read .word 0x08#10)).pending = .access (.read .word 0x08#10) :: [] := ⟨_, rfl, rfl⟩

theorem witness_RegisterReadsAnswerTheState :
    (facing (.read .word 0x04#10)).NextAccess (.read .word 0x04#10) [] ∧
      (facing (.read .word 0x58#10)).NextAccess (.read .word 0x58#10) [] := ⟨⟨rfl, rfl⟩, ⟨rfl, rfl⟩⟩

/-- The greatest value of each timer register. -/
theorem witness_RegisterReadsAnswerTheState_timer :
    (facing (.read .word 0x18#10)).NextAccess (.read .word 0x18#10) [] ∧
      (facing (.read .word 0x1C#10)).NextAccess (.read .word 0x1C#10) [] ∧
      (0xFFFF#32).toNat < 2 ^ demo.params.pscBits ∧ (0xFFFF#32).toNat < 2 ^ demo.params.arrBits :=
  ⟨⟨rfl, rfl⟩, ⟨rfl, rfl⟩, by decide, by decide⟩

theorem witness_StatusRegistersShowTheFlags :
    (facing (.read .word 0x08#10)).NextAccess (.read .word 0x08#10) [] ∧
      (facing (.read .word 0x48#10)).NextAccess (.read .word 0x48#10) [] := ⟨⟨rfl, rfl⟩, ⟨rfl, rfl⟩⟩

theorem witness_ResultCodesReadAsListed :
    demo.hopCode = .ok ∧ demo.sprCode = .ok ∧ ({ demo with hopCode := .unachLow } : State).hopCode = .unachLow ∧
      ({ demo with hopCode := .illegal } : State).hopCode = .illegal ∧
      ({ demo with hopCode := .unachHigh } : State).hopCode = .unachHigh ∧
      ({ demo with sprCode := .illegal } : State).sprCode = .illegal ∧
      ({ demo with sprCode := .full } : State).sprCode = .full := ⟨rfl, rfl, rfl, rfl, rfl, rfl, rfl⟩

/-- The first and the last byte of the frame window. -/
theorem witness_FrameWindowReadsEveryByte :
    (facing (.read .byte 0x200#10)).NextAccess (.read .byte (BitVec.ofNat 10 (0x200 + 0))) [] ∧
      (facing (.read .byte 0x390#10)).NextAccess (.read .byte (BitVec.ofNat 10 (0x200 + 400))) [] :=
  ⟨⟨rfl, rfl⟩, ⟨rfl, rfl⟩⟩

theorem witness_OperandWritesKeepEveryBit :
    (facing (.write .word 0x10#10 0xFFFFFFFF#32)).NextAccess (.write .word 0x10#10 0xFFFFFFFF#32) [] ∧
      (facing (.write .word 0x14#10 0xFFFFFFFF#32)).NextAccess (.write .word 0x14#10 0xFFFFFFFF#32) [] ∧
      (facing (.write .word 0x4C#10 0xFFFFFFFF#32)).NextAccess (.write .word 0x4C#10 0xFFFFFFFF#32) [] :=
  ⟨⟨rfl, rfl⟩, ⟨rfl, rfl⟩, ⟨rfl, rfl⟩⟩

/-- The first and the last host address of the block, and the first behind it. -/
theorem witness_HostAddressesNameTheOffsets :
    blockOffset Config.base = some 0x000#10 ∧ blockOffset (Config.base + 0x3FF) = some 0x3FF#10 ∧
      blockOffset (Config.base + 0x400) = none := by
  simp [blockOffset]

theorem witness_CommandsStayInTheirUnit :
    (∃ t t', exec .frqnext demo = .next t ∧ exec .frqnext (pushing 5 0x40000000#32) = .next t' ∧
        SameHopper demo (pushing 5 0x40000000#32)) ∧
      ∃ t t', exec .sppush demo = .next t ∧ exec .sppush { demo with lcg := 5#32 } = .next t' ∧
        SameSpreader demo { demo with lcg := 5#32 } :=
  ⟨⟨_, _, rfl, rfl, ⟨rfl, rfl, rfl, rfl, rfl, rfl, rfl, rfl, rfl⟩⟩,
    ⟨_, _, rfl, rfl, ⟨rfl, rfl, rfl, rfl, rfl, fun _ => rfl, rfl, rfl, rfl⟩⟩⟩

/-- A push and a hop, in either order. -/
theorem witness_InterleavingsOfTheUnitsEndAlike :
    let a : HostEvent := commandEvent .frqnext
    let b : HostEvent := commandEvent .sppush
    AccessesOnly [a, b] ∧ AccessesOnly [b, a] ∧
      [a, b].filter (fun e => bank e = .hopper) = [b, a].filter (fun e => bank e = .hopper) ∧
      [a, b].filter (fun e => bank e = .spreader) = [b, a].filter (fun e => bank e = .spreader) ∧
      ∃ t, run 2 { demo with pending := [a, b] } = .next t := by
  refine ⟨?_, ?_, by decide, by decide, ⟨_, rfl⟩⟩ <;>
  · intro e he
    simp only [List.mem_cons, List.not_mem_nil, or_false] at he
    rcases he with rfl | rfl <;> exact ⟨_, rfl⟩

theorem witness_ProgramRunsTprogOnItsOperand :
    ∃ s : State, s.resetLine = false ∧ s.pending = stmtEvents (.program 0x0000000100000000#64) ++ [] :=
  ⟨{ demo with pending := stmtEvents (.program 0x0000000100000000#64) ++ [] }, rfl, rfl⟩

theorem witness_HopFailsOnASlowClock :
    ∃ s : State, s.resetLine = false ∧ s.params.fClk = 299999999 ∧ s.pending = stmtEvents .hop ++ [] :=
  ⟨{ clocked 299999999 with pending := stmtEvents .hop ++ [] }, rfl, rfl, rfl⟩

theorem witness_HopReportCarriesTheFrequency : ∃ t, exec .frqnext demo = .next t := ⟨_, rfl⟩

/-- A clock on which the first hop is achievable, and one on which no hop is. -/
theorem witness_HopReportsOrStopsHard :
    demo.resetLine = false ∧ (hopView (hopCycle 8 (clocked 6000000000))).isSome = true ∧
      (hopFailure (hopCycle 8 demo)).isSome = true := by decide

theorem witness_TransmissionSendsTheSpreadFrame :
    Memory.wf demo.modbuf = true ∧ demo.resetLine = false ∧ (List.replicate 100 0x3F800000#32).length = 100 := by decide

/-- No sample, and one too few. -/
theorem witness_NothingIsSentOfAnIncompleteFrame :
    demo.resetLine = false ∧ ([] : List Word).length < 100 ∧ (List.replicate 99 0x3F800000#32).length < 100 := by decide

/-- As many failures as the ceiling, and one more. -/
theorem witness_FailedAttemptsAreRecordedByClass :
    demo.resetLine = false ∧ (∀ r ∈ [Reply.timeout, .byte 0x54#8], r.isAck = false) ∧
      [Reply.timeout, .byte 0x54#8].length ≤ 2 ∧ 1 < [Reply.timeout, .byte 0x54#8].length := by decide

/-- As many failures as the ceiling, and one more. -/
theorem witness_RetryIsBoundedAndByteIdentical :
    (∀ r ∈ [Reply.timeout, .byte 0x54#8, .byte 0xAA#8], r.isAck = false) ∧
      [Reply.timeout, .byte 0x54#8, .byte 0xAA#8].length ≤ 3 ∧ 2 < [Reply.timeout, .byte 0x54#8, .byte 0xAA#8].length := by
  decide

end Sys2Proof.Tests
end

section
/-! SUPPORT. What a decoded word is, what every command and every step leaves, the frames of the two units and the
register accesses, each said once. -/

namespace Sys2Proof.Machine

/-! ### A legal word is the encoding of its instruction (30_encoding.md R62, R64) -/

/-- Two words with bits 31:9 zero and the same three fields are the same word. -/
theorem word_eq_of_fields {v w : Word} (hv : fieldHigh v = 0#23) (hw : fieldHigh w = 0#23)
    (hfn : fieldFn v = fieldFn w) (hunit : fieldUnit v = fieldUnit w) (himm : fieldImm v = fieldImm w) : v = w := by
  rw [word_of_fields v hv, word_of_fields w hw, hfn, hunit, himm]

/-- The fields of every instruction's word. -/
theorem encodedFields (i : Instr) : Laws.EncodedFields.Statement i := by
  cases i with
  | lcgnext => exact Laws.EncodedFields.lcgnext
  | frqnext => exact Laws.EncodedFields.frqnext
  | tprog => exact Laws.EncodedFields.tprog
  | stsig imm => exact Laws.EncodedFields.stsig imm
  | spstart => exact Laws.EncodedFields.spstart
  | sppush => exact Laws.EncodedFields.sppush

theorem formatZ_ok {imm : Bool} {i j : Instr} (h : formatZ imm i = .ok j) : imm = false ∧ j = i := by
  cases imm with
  | false => cases h; exact ⟨rfl, rfl⟩
  | true => cases h

/-- A Hopper function decodes to a Hopper instruction whose word has that FN and IMM. -/
theorem decodeHopper_ok {fn : BitVec 4} {imm : Bool} {i : Instr} (h : decodeHopper fn imm = .ok i) :
    i.port = .hopCmd ∧ fieldFn (encode i) = fn ∧ fieldImm (encode i) = imm := by
  unfold decodeHopper at h
  split_ifs at h with h1 h2 h3 h4
  · obtain ⟨rfl, rfl⟩ := formatZ_ok h
    exact ⟨rfl, h1.symm, rfl⟩
  · obtain ⟨rfl, rfl⟩ := formatZ_ok h
    exact ⟨rfl, h2.symm, rfl⟩
  · obtain ⟨rfl, rfl⟩ := formatZ_ok h
    exact ⟨rfl, h3.symm, rfl⟩
  · cases h
    subst h4
    cases imm <;> exact ⟨rfl, rfl, rfl⟩

/-- A Spreader function decodes to a Spreader instruction whose word has that FN and IMM. -/
theorem decodeSpreader_ok {fn : BitVec 4} {imm : Bool} {i : Instr} (h : decodeSpreader fn imm = .ok i) :
    i.port = .sprCmd ∧ fieldFn (encode i) = fn ∧ fieldImm (encode i) = imm := by
  unfold decodeSpreader at h
  split_ifs at h with h1 h2
  · obtain ⟨rfl, rfl⟩ := formatZ_ok h
    exact ⟨rfl, h1.symm, rfl⟩
  · obtain ⟨rfl, rfl⟩ := formatZ_ok h
    exact ⟨rfl, h2.symm, rfl⟩

/-- A word decodes on a port only to an instruction of that port, and only if it is that instruction's word. -/
theorem eq_encode_of_decode {p : Port} {w : Word} {i : Instr} (h : decode p w = .ok i) :
    i.port = p ∧ w = encode i := by
  unfold decode at h
  split_ifs at h with hhigh hunit
  rw [not_not] at hhigh hunit
  have fields : i.port = p ∧ fieldFn (encode i) = fieldFn w ∧ fieldImm (encode i) = fieldImm w := by
    cases p with
    | hopCmd => exact decodeHopper_ok h
    | sprCmd => exact decodeSpreader_ok h
  obtain ⟨hport, hfn, himm⟩ := fields
  obtain ⟨hhigh', hunit', -⟩ := encodedFields i
  refine ⟨hport, word_eq_of_fields hhigh hhigh' hfn.symm ?_ himm.symm⟩
  rw [hunit, hunit', hport]

/-- The two words of STSIG (30_encoding.md R64). -/
theorem encode_stsig (imm : Bool) : encode (.stsig imm) = if imm then 0x00000114#32 else 0x00000014#32 := by
  cases imm <;> rfl

/-! ### What a command leaves -/

/-- The state each command leaves: one case for each way it can end. -/
inductive CommandEffect (s : State) : Instr → State → Prop where
  | lcgnext : CommandEffect s .lcgnext ((s.setLcg (lcgStep s.lcg)).setHopCode .ok)
  | frqnext : CommandEffect s .frqnext (((s.setLcg (lcgStep s.lcg)).setFreq (rangeMap (lcgStep s.lcg))).setHopCode .ok)
  | tprogPair {psc arr : Nat} (h : periodMap s.params s.freq.toNat = .pair psc arr) :
      CommandEffect s .tprog ((s.setTimer (BitVec.ofNat 32 psc) (BitVec.ofNat 32 arr)).setHopCode .ok)
  | tprogFail {e : BlockError} (h : periodMap s.params s.freq.toNat = .unachievable e) :
      CommandEffect s .tprog (raise e s)
  | stsig (imm : Bool) : CommandEffect s (.stsig imm) ((s.setStatusSig imm).setHopCode .ok)
  | spstart : CommandEffect s .spstart ((s.setIdx 0).setSprCode .ok)
  | sppushFull (h : s.idx.val = 100) : CommandEffect s .sppush (raise .full s)
  | sppushRoom (h : s.idx.val ≠ 100) :
      CommandEffect s .sppush (((s.appendSample s.product).setDraws s.drawsAfterPush).setSprCode .ok)

/-- Every execution of a command is one of the cases of `CommandEffect`. -/
theorem exec_effect {i : Instr} {s t : State} (h : exec i s = .next t) : CommandEffect s i t := by
  cases i with
  | lcgnext => rw [exec_lcgnext] at h; cases h; exact .lcgnext
  | frqnext => rw [exec_frqnext] at h; cases h; exact .frqnext
  | stsig imm => rw [exec_stsig] at h; cases h; exact .stsig imm
  | spstart => rw [exec_spstart] at h; cases h; exact .spstart
  | tprog =>
    cases hm : periodMap s.params s.freq.toNat with
    | pair psc arr => rw [exec_tprog_pair hm] at h; cases h; exact .tprogPair hm
    | unachievable e => rw [exec_tprog_fail hm] at h; cases h; exact .tprogFail hm
  | sppush =>
    by_cases hi : s.idx.val = 100
    · rw [exec_sppush_full hi] at h; cases h; exact .sppushFull hi
    · rw [exec_sppush_room hi] at h; cases h; exact .sppushRoom hi

/-- Everything a command word that answers a next state can have done. -/
theorem runCommand_effect {p : Port} {w : Word} {s t : State} (h : runCommand p w s = .next t) :
    (∃ i, i.port = p ∧ w = encode i ∧ CommandEffect s i t) ∨ t = raise (.illegal p.unit) s := by
  rcases runCommand_cases p w s with ⟨i, hd, hr⟩ | ⟨e, -, hr⟩
  · obtain ⟨hport, hw⟩ := eq_encode_of_decode hd
    rw [hr] at h
    exact .inl ⟨i, hport, hw, exec_effect h⟩
  · rw [hr] at h
    cases h
    exact .inr rfl

/-! ### What a step leaves -/

/-- The register at an offset is the one whose offset it is. -/
theorem eq_regOffset_of_regionAt {off : Offset} {r : Reg} (h : regionAt off = .register r) : off = regOffset r := by
  rcases regionAt_cases off with ⟨r', h', ho⟩ | ⟨h', -⟩ | ⟨j, h', -⟩ | ⟨h', -⟩
  · rw [h] at h'
    cases h'
    exact ho
  all_goals rw [h] at h'; cases h'

/-- The state a step leaves: one case for each kind of event it can take. -/
inductive StepEffect (s t : State) : Prop where
  | idle (hp : s.pending = []) (ht : t = s)
  | drive (b : Bool) (rest : List HostEvent) (hp : s.pending = .drive b :: rest)
      (ht : t = driveReset b (s.setPending rest))
  | read (a : Access) (rest : List HostEvent) (r : Response) (hp : s.pending = .access a :: rest)
      (ht : t = (s.setPending rest).setResponse r)
  | writeFreq (a : Access) (rest : List HostEvent) (f : DWord) (hp : s.pending = .access a :: rest)
      (ht : t = ((s.setPending rest).setFreq f).setResponse .done)
  | writeSample (a : Access) (rest : List HostEvent) (v : Word) (hp : s.pending = .access a :: rest)
      (ht : t = ((s.setPending rest).setSampleIn v).setResponse .done)
  | command (p : Port) (w : Word) (rest : List HostEvent)
      (hp : s.pending = .access (.write .word (portOffset p) w) :: rest)
      (ht : runCommand p w ((s.setPending rest).setResponse .done) = .next t)

/-- Every step that answers a next state is one of the cases of `StepEffect`. -/
theorem step_effect {s t : State} (h : step s = .next t) : StepEffect s t := by
  rcases step_next_cases h with ⟨hp, ht⟩ | ⟨b, rest, hp, ht⟩ | ⟨a, rest, act, hp, ha, ht⟩
  · exact .idle hp ht
  · exact .drive b rest hp ht
  obtain ⟨-, hact⟩ := admit_ok ha
  rcases hact with ⟨off, r, -, -, -, -, rfl⟩ | ⟨off, j, -, -, rfl⟩ | ⟨off, v, -, -, rfl⟩ | ⟨off, v, -, -, rfl⟩ |
    ⟨off, v, -, -, rfl⟩ | ⟨off, v, rfl, hr, rfl⟩ | ⟨off, v, rfl, hr, rfl⟩
  · cases ht; exact .read a rest _ hp rfl
  · cases ht; exact .read a rest _ hp rfl
  · cases ht; exact .writeFreq a rest _ hp rfl
  · cases ht; exact .writeFreq a rest _ hp rfl
  · cases ht; exact .writeSample a rest v hp rfl
  · rw [eq_regOffset_of_regionAt hr] at hp
    exact .command .hopCmd v rest hp ht
  · rw [eq_regOffset_of_regionAt hr] at hp
    exact .command .sprCmd v rest hp ht

/-! ### Frames: what an error and a command leave unchanged (10_state.md R10) -/

/-- An error changes result codes and sticky flags only. -/
theorem raise_frame (e : BlockError) (s : State) :
    ∃ hopCode hopFIll hopFUnach sprCode sprFIll sprFFull, raise e s =
      { s with hopCode := hopCode, hopFIll := hopFIll, hopFUnach := hopFUnach,
               sprCode := sprCode, sprFIll := sprFIll, sprFFull := sprFFull } := by
  rcases e with (_ | _) | _ | _ | _ <;> exact ⟨_, _, _, _, _, _, rfl⟩

/-- A Hopper error leaves the Spreader's state. -/
theorem raise_sameSpreader {e : BlockError} (he : e.unit = .hopper) (s : State) : SameSpreader s (raise e s) := by
  rcases e with (_ | _) | _ | _ | _ <;> cases he <;>
    exact ⟨rfl, rfl, rfl, rfl, rfl, fun _ => rfl, rfl, rfl, rfl⟩

/-- A Spreader error leaves the Hopper's state. -/
theorem raise_sameHopper {e : BlockError} (he : e.unit = .spreader) (s : State) : SameHopper s (raise e s) := by
  rcases e with (_ | _) | _ | _ | _ <;> cases he <;> exact ⟨rfl, rfl, rfl, rfl, rfl, rfl, rfl, rfl, rfl⟩

/-- PeriodMap raises no other errors than these two of the Hopper. -/
theorem periodMap_error {p : Params} {f : Nat} {e : BlockError} (h : periodMap p f = .unachievable e) :
    e = .unachLow ∨ e = .unachHigh := by
  rcases periodMap_cases p f with ⟨-, h'⟩ | ⟨-, -, h'⟩ | ⟨-, -, -, h'⟩ | ⟨-, -, -, h'⟩ <;> rw [h] at h' <;> cases h'
  · exact .inl rfl
  · exact .inr rfl
  · exact .inl rfl

/-- No command writes the parameters or the chips. -/
theorem CommandEffect.params_pn {i : Instr} {s t : State} (h : CommandEffect s i t) :
    t.params = s.params ∧ t.pn = s.pn := by
  cases h with
  | lcgnext | frqnext | tprogPair _ | stsig _ | spstart | sppushFull _ => exact ⟨rfl, rfl⟩
  | sppushRoom _ => constructor <;> simp
  | @tprogFail e _ =>
    obtain ⟨_, _, _, _, _, _, he⟩ := raise_frame e s
    rw [he]
    exact ⟨rfl, rfl⟩

/-- A Hopper command leaves the Spreader's state and the draws. -/
theorem CommandEffect.sameSpreader {i : Instr} {s t : State} (h : CommandEffect s i t) (hport : i.port = .hopCmd) :
    SameSpreader s t ∧ t.draws = s.draws := by
  cases h with
  | lcgnext | frqnext | tprogPair _ | stsig _ =>
    exact ⟨⟨rfl, rfl, rfl, rfl, rfl, fun _ => rfl, rfl, rfl, rfl⟩, rfl⟩
  | @tprogFail e hm =>
    rcases periodMap_error hm with rfl | rfl <;> exact ⟨raise_sameSpreader rfl s, rfl⟩
  | spstart | sppushFull _ | sppushRoom _ => cases hport

/-- A Spreader command leaves the Hopper's state. -/
theorem CommandEffect.sameHopper {i : Instr} {s t : State} (h : CommandEffect s i t) (hport : i.port = .sprCmd) :
    SameHopper s t := by
  cases h with
  | lcgnext | frqnext | tprogPair _ | tprogFail _ | stsig _ => cases hport
  | spstart => exact ⟨rfl, rfl, rfl, rfl, rfl, rfl, rfl, rfl, rfl⟩
  | sppushRoom _ => constructor <;> simp
  | sppushFull _ => exact raise_sameHopper rfl s

/-- A word on HOP_CMD, legal or not, leaves the Spreader's state. -/
theorem runCommand_hopper_sameSpreader {w : Word} {s t : State} (h : runCommand .hopCmd w s = .next t) :
    SameSpreader s t := by
  rcases runCommand_effect h with ⟨i, hport, -, he⟩ | rfl
  · exact (he.sameSpreader hport).1
  · exact raise_sameSpreader rfl s

/-- A word on SPR_CMD, legal or not, leaves the Hopper's state. -/
theorem runCommand_spreader_sameHopper {w : Word} {s t : State} (h : runCommand .sprCmd w s = .next t) :
    SameHopper s t := by
  rcases runCommand_effect h with ⟨i, hport, -, he⟩ | rfl
  · exact he.sameHopper hport
  · exact raise_sameHopper rfl s

/-! ### The invariant (10_state.md R35) -/

theorem toNat_ofNat_of_fits {n b : Nat} (hn : n < 2 ^ b) (hb : b ≤ 32) : (BitVec.ofNat 32 n).toNat = n := by
  rw [BitVec.toNat_ofNat]
  exact Nat.mod_eq_of_lt (lt_of_lt_of_le hn (Nat.pow_le_pow_right (by decide) hb))

/-- The pair of PeriodMap fits the timer's registers (41_timer_period.md R94(a)). -/
theorem periodMap_pair_fits {p : Params} {f psc arr : Nat} (h : periodMap p f = .pair psc arr) :
    psc < 2 ^ p.pscBits ∧ arr < 2 ^ p.arrBits := by
  obtain ⟨-, -, -, hpsc, harr, hpos, hle, -⟩ := periodMap_pair h
  exact ⟨hpsc, by omega⟩

/-- Raising an error keeps the invariant: it speaks of no code and no flag. -/
theorem State.Inv.raise {s : State} (h : s.Inv) (e : BlockError) : (Machine.raise e s).Inv := by
  obtain ⟨_, _, _, _, _, _, he⟩ := raise_frame e s
  rw [he]
  exact h.of_eq rfl rfl rfl rfl rfl rfl

/-- Resetting gives the invariant back: the seed, no pair programmed, an empty buffer. -/
theorem State.Inv.applyReset {s : State} (h : s.Inv) : (Machine.applyReset s).Inv where
  params := h.params
  modbuf := Memory.wf_nil
  lcg := .inl rfl
  timPsc := Nat.two_pow_pos _
  timArr := Nat.two_pow_pos _
  timer := ⟨rfl, rfl⟩

theorem State.Inv.setResetLine {s : State} (h : s.Inv) (b : Bool) : (s.setResetLine b).Inv :=
  h.of_eq rfl rfl rfl rfl rfl rfl

theorem State.Inv.driveReset {s : State} (h : s.Inv) (b : Bool) : (Machine.driveReset b s).Inv := by
  rcases driveReset_cases b s with ⟨-, hd⟩ | ⟨-, -, hd⟩ | ⟨-, -, hd⟩ <;> rw [hd]
  · exact h.applyReset.setResetLine true
  · exact h.applyReset.setResetLine false
  · exact h

/-- An LCG step lands below the modulus, and no other field the invariant speaks of moves. -/
theorem State.Inv.setLcg_lcgStep {s : State} (h : s.Inv) (x : Word) : (s.setLcg (lcgStep x)).Inv where
  params := h.params
  modbuf := h.modbuf
  lcg := .inr (lcgStep_le x)
  timPsc := h.timPsc
  timArr := h.timArr
  timer := h.timer

/-- Programming a pair of PeriodMap keeps the invariant: the registers hold that very pair. -/
theorem State.Inv.setTimer {s : State} (h : s.Inv) {f : DWord} {psc arr : Nat}
    (hm : periodMap s.params f.toNat = .pair psc arr) :
    (s.setTimer (BitVec.ofNat 32 psc) (BitVec.ofNat 32 arr)).Inv := by
  obtain ⟨hpsc, harr⟩ := periodMap_pair_fits hm
  obtain ⟨-, -, -, hpb, -, hab⟩ := (params_wf_iff _).1 h.params
  have epsc := toNat_ofNat_of_fits hpsc hpb
  have earr := toNat_ofNat_of_fits harr hab
  exact {
    params := h.params
    modbuf := h.modbuf
    lcg := h.lcg
    timPsc := by simpa only [State.setTimer_params, State.setTimer_timPsc, epsc] using hpsc
    timArr := by simpa only [State.setTimer_params, State.setTimer_timArr, earr] using harr
    timer := ⟨f, by simpa only [State.setTimer_params, State.setTimer_timPsc, State.setTimer_timArr, epsc, earr] using hm⟩ }

/-- Appending a sample while one fits keeps the buffer canonical. -/
theorem State.Inv.appendSample {s : State} (h : s.Inv) (hi : s.idx.val ≠ 100) (m : Word) :
    (s.appendSample m).Inv where
  params := h.params
  modbuf := Memory.wf_storeSample h.modbuf (by have := s.idx.isLt; omega) m
  lcg := h.lcg
  timPsc := h.timPsc
  timArr := h.timArr
  timer := h.timer

/-- Every command keeps the invariant. -/
theorem CommandEffect.inv {i : Instr} {s t : State} (h : CommandEffect s i t) (hs : s.Inv) : t.Inv := by
  cases h with
  | lcgnext | frqnext => exact (hs.setLcg_lcgStep s.lcg).of_eq rfl rfl rfl rfl rfl rfl
  | tprogPair hm => exact (hs.setTimer hm).of_eq rfl rfl rfl rfl rfl rfl
  | tprogFail _ => exact hs.raise _
  | stsig _ | spstart => exact hs.of_eq rfl rfl rfl rfl rfl rfl
  | sppushFull _ => exact hs.raise .full
  | sppushRoom hi => exact (hs.appendSample hi _).of_eq rfl rfl rfl rfl rfl rfl

/-! ### The status signal (10_state.md R16) -/

/-- Of the commands only STSIG writes STATUS_SIG, and it leaves its immediate there. -/
theorem CommandEffect.statusSig {i : Instr} {s t : State} (h : CommandEffect s i t) :
    t.statusSig = s.statusSig ∨ i = .stsig t.statusSig := by
  cases h with
  | lcgnext | frqnext | tprogPair _ | spstart | sppushFull _ => exact .inl rfl
  | sppushRoom _ => exact .inl (by simp)
  | stsig imm => exact .inr rfl
  | @tprogFail e _ =>
    obtain ⟨_, _, _, _, _, _, he⟩ := raise_frame e s
    exact .inl (by rw [he])

/-! ### The byte store (10_state.md R24) -/

/-- A canonical store reads the bytes of its first entry there. -/
theorem Memory.read_cons_self (a : Nat) (v : Byte) (m : Memory) : Memory.read ((a, v) :: m) a = v := by
  rw [Memory.read, if_pos rfl]

/-- Of two canonical stores that read alike, neither starts above the other: the lower first byte is not 0x00. -/
theorem Memory.first_le_of_read_eq {lo a b : Nat} {v : Byte} {m n : Memory} (hm : Memory.wfFrom lo ((a, v) :: m) = true)
    (hn : Memory.wfFrom b n = true) (h : Memory.read ((a, v) :: m) a = Memory.read n a) : b ≤ a := by
  obtain ⟨-, -, hv, -⟩ := (Memory.wfFrom_cons ..).1 hm
  by_contra hlt
  rw [Memory.read_cons_self, Memory.read_below hn (by omega)] at h
  exact hv h

/-- A canonical store that reads 0x00 everywhere has no entry. -/
theorem Memory.eq_nil_of_read_zero {lo : Nat} {m : Memory} (hm : Memory.wfFrom lo m = true)
    (h : ∀ j, Memory.read m j = 0x00#8) : m = [] := by
  cases m with
  | nil => rfl
  | cons c m =>
    obtain ⟨a, v⟩ := c
    obtain ⟨-, -, hv, -⟩ := (Memory.wfFrom_cons ..).1 hm
    exact absurd ((Memory.read_cons_self a v m).symm.trans (h a)) hv

/-- Canonical stores are known by what they read. -/
theorem Memory.ext_of_wfFrom {lo lo' : Nat} {m n : Memory} (hm : Memory.wfFrom lo m = true)
    (hn : Memory.wfFrom lo' n = true) (h : ∀ j, Memory.read m j = Memory.read n j) : m = n := by
  induction m generalizing lo lo' n with
  | nil => exact (Memory.eq_nil_of_read_zero hn fun j => (h j).symm).symm
  | cons c m ih =>
    obtain ⟨a, v⟩ := c
    cases n with
    | nil => exact Memory.eq_nil_of_read_zero hm h
    | cons d n =>
      obtain ⟨b, w⟩ := d
      obtain ⟨-, hb, hw, hn'⟩ := (Memory.wfFrom_cons ..).1 hn
      obtain ⟨-, ha, hv, hm'⟩ := (Memory.wfFrom_cons ..).1 hm
      have hba := Memory.first_le_of_read_eq hm ((Memory.wfFrom_cons ..).2 ⟨le_rfl, hb, hw, hn'⟩) (h a)
      have hab := Memory.first_le_of_read_eq hn ((Memory.wfFrom_cons ..).2 ⟨le_rfl, ha, hv, hm'⟩) (h b).symm
      obtain rfl : a = b := le_antisymm hab hba
      have hvw : v = w := by simpa only [Memory.read_cons_self] using h a
      have htail : ∀ j, Memory.read m j = Memory.read n j := by
        intro j
        by_cases hj : j = a
        · rw [hj, Memory.read_below hm' (Nat.lt_succ_self a), Memory.read_below hn' (Nat.lt_succ_self a)]
        · simpa only [Memory.read, if_neg (Ne.symm hj)] using h j
      rw [hvw, ih hm' hn' htail]

/-! ### Register accesses (10_state.md R30, R31) -/

theorem readReg_setPending (r : Reg) (s : State) (es : List HostEvent) : readReg r (s.setPending es) = readReg r s := by
  cases r <;> rfl

/-- A 32-bit read of a readable register answers `readReg` and changes nothing else. -/
theorem step_read_register {s : State} {rest : List HostEvent} {r : Reg}
    (hs : s.NextAccess (.read .word (regOffset r)) rest) (h1 : r ≠ .hopCmd) (h2 : r ≠ .sprCmd) :
    step s = .next { s with pending := rest, response := .word (readReg r s) } := by
  have ha : admission s.resetLine (.read .word (regOffset r)) = .ok (.readReg r) := by
    rw [hs.released]
    cases r with
    | hopCmd => exact absurd rfl h1
    | sprCmd => exact absurd rfl h2
    | _ => rfl
  rw [step_admitted hs.pending ha, perform, readReg_setPending]
  rfl

/-- A RESULT register reads its code with zeros above. -/
theorem resultWord_eq_setWidth (c : ResultCode) : resultWord c = c.bits.setWidth 32 := by
  cases c <;> rfl

/-- PN_BITS reads the chips with zeros above. -/
theorem pnBitsWord_eq_setWidth (s : State) : pnBitsWord s = s.pn.setWidth 32 :=
  BitVec.shiftLeft_zero _

/-- From the width of its value up, every bit of a word is 0. -/
theorem getLsbD_of_toNat_lt {v : Word} {b i : Nat} (h : v.toNat < 2 ^ b) (hi : b ≤ i) : v.getLsbD i = false := by
  rw [← BitVec.testBit_toNat]
  exact Nat.testBit_lt_two_pow (lt_of_lt_of_le h (Nat.pow_le_pow_right (by decide) hi))

/-- A flag placed at bit `k` of a word is that bit and 0 elsewhere. -/
theorem getLsbD_fieldAt_ofBool (b : Bool) {k : Nat} (hk : k < 32) (i : Nat) :
    (fieldAt (BitVec.ofBool b) k).getLsbD i = (decide (i = k) && b) := by
  rcases lt_trichotomy i k with h | rfl | h
  · simp [fieldAt, h, h.ne]
  · simp [fieldAt, hk]
  · have hne : i - k ≠ 0 := by omega
    simp [fieldAt, hne, h.ne']

/-- HOP_STAT bit by bit (10_state.md R18). -/
theorem getLsbD_hopStatWord (s : State) (i : Nat) :
    (hopStatWord s).getLsbD i = if i = 0 then s.outEn else if i = 1 then s.statusSig else if i = 8 then s.hopFIll
      else if i = 9 then s.hopFUnach else false := by
  rw [hopStatWord, BitVec.getLsbD_or, BitVec.getLsbD_or, BitVec.getLsbD_or, getLsbD_fieldAt_ofBool _ (by decide),
    getLsbD_fieldAt_ofBool _ (by decide), getLsbD_fieldAt_ofBool _ (by decide), getLsbD_fieldAt_ofBool _ (by decide)]
  split_ifs <;> simp [*]

/-- SPR_STAT bit by bit (10_state.md R26). -/
theorem getLsbD_sprStatWord (s : State) (i : Nat) :
    (sprStatWord s).getLsbD i = if i = 0 then s.frameReady else if i = 8 then s.sprFIll
      else if i = 9 then s.sprFFull else false := by
  rw [sprStatWord, BitVec.getLsbD_or, BitVec.getLsbD_or, getLsbD_fieldAt_ofBool _ (by decide),
    getLsbD_fieldAt_ofBool _ (by decide), getLsbD_fieldAt_ofBool _ (by decide)]
  split_ifs <;> simp [*]

/-- A 32-bit write that admission lets through is performed, with reset released. -/
theorem step_write_register {s : State} {rest : List HostEvent} {r : Reg} {v : Word} {act : BusAction}
    (hs : s.NextAccess (.write .word (regOffset r) v) rest) (hact : admitWrite r v = .ok act) :
    step s = perform act (s.setPending rest) := by
  refine step_admitted hs.pending ?_
  rw [hs.released]
  simpa [admission, admitReleased, regionAt_regOffset] using hact

/-! ### What a command reads (10_state.md R10): equal units stay equal -/

section SameHopper

variable {s t : State} (h : SameHopper s t)
include h

theorem SameHopper.setLcg (v : Word) : SameHopper (s.setLcg v) (t.setLcg v) := { h with lcg := rfl }
theorem SameHopper.setFreq (v : DWord) : SameHopper (s.setFreq v) (t.setFreq v) := { h with freq := rfl }
theorem SameHopper.setTimer (p a : Word) : SameHopper (s.setTimer p a) (t.setTimer p a) :=
  { h with timPsc := rfl, timArr := rfl, outEn := rfl }
theorem SameHopper.setStatusSig (b : Bool) : SameHopper (s.setStatusSig b) (t.setStatusSig b) :=
  { h with statusSig := rfl }
theorem SameHopper.setHopCode (c : ResultCode) : SameHopper (s.setHopCode c) (t.setHopCode c) :=
  { h with hopCode := rfl }
theorem SameHopper.setHopFUnach (b : Bool) : SameHopper (s.setHopFUnach b) (t.setHopFUnach b) :=
  { h with hopFUnach := rfl }

/-- An unachievable frequency does the same to equal Hopper states. -/
theorem SameHopper.raise_of_periodMap {p : Params} {f : Nat} {e : BlockError}
    (hm : periodMap p f = .unachievable e) : SameHopper (raise e s) (raise e t) := by
  rcases periodMap_error hm with rfl | rfl <;> exact (h.setHopCode _).setHopFUnach true

end SameHopper

section SameSpreader

variable {s t : State} (h : SameSpreader s t)
include h

theorem SameSpreader.setIdx (i : Fin 101) : SameSpreader (s.setIdx i) (t.setIdx i) := { h with idx := rfl }
theorem SameSpreader.setModOut (v : Word) : SameSpreader (s.setModOut v) (t.setModOut v) := { h with modOut := rfl }
theorem SameSpreader.setModbuf (m : Memory) : SameSpreader (s.setModbuf m) (t.setModbuf m) :=
  { h with modbuf := rfl, modByte := fun _ => rfl }
theorem SameSpreader.setDraws (n : Nat) : SameSpreader (s.setDraws n) (t.setDraws n) := { h with }
theorem SameSpreader.setSprCode (c : ResultCode) : SameSpreader (s.setSprCode c) (t.setSprCode c) :=
  { h with sprCode := rfl }
theorem SameSpreader.setSprFFull (b : Bool) : SameSpreader (s.setSprFFull b) (t.setSprFFull b) :=
  { h with sprFFull := rfl }

/-- Appending the same sample to equal frames gives equal frames. -/
theorem SameSpreader.appendSample (m : Word) : SameSpreader (s.appendSample m) (t.appendSample m) := by
  rw [State.appendSample, State.appendSample, h.idx, h.modbuf]
  exact ((h.setModOut m).setModbuf _).setIdx _

theorem SameSpreader.chip : t.chip = s.chip := by
  rw [State.chip, State.chip, h.pn, h.idx]

/-- The next product reads Spreader state and the count of draws only. -/
theorem SameSpreader.product (hd : t.draws = s.draws) : t.product = s.product := by
  rw [State.product, State.product, h.chip, h.sampleIn, hd]

theorem SameSpreader.drawsAfterPush (hd : t.draws = s.draws) : t.drawsAfterPush = s.drawsAfterPush := by
  rw [State.drawsAfterPush, State.drawsAfterPush, h.chip, h.sampleIn, hd]

end SameSpreader

/-- A Hopper command reads no more than Hopper state and the parameters. -/
theorem CommandEffect.sameHopper_of_sameHopper {i : Instr} {s t s' t' : State} (h : CommandEffect s i t)
    (h' : CommandEffect s' i t') (hport : i.port = .hopCmd) (hs : SameHopper s s') (hp : s'.params = s.params) :
    SameHopper t t' := by
  have hmap : periodMap s'.params s'.freq.toNat = periodMap s.params s.freq.toNat := by rw [hp, hs.freq]
  cases h with
  | lcgnext =>
    cases h'
    rw [hs.lcg]
    exact (hs.setLcg _).setHopCode _
  | frqnext =>
    cases h'
    rw [hs.lcg]
    exact ((hs.setLcg _).setFreq _).setHopCode _
  | stsig imm =>
    cases h'
    exact (hs.setStatusSig _).setHopCode _
  | tprogPair hm =>
    cases h' with
    | tprogPair hm' =>
      rw [hmap, hm] at hm'
      cases hm'
      exact (hs.setTimer _ _).setHopCode _
    | tprogFail hm' => rw [hmap, hm] at hm'; cases hm'
  | tprogFail hm =>
    cases h' with
    | tprogPair hm' => rw [hmap, hm] at hm'; cases hm'
    | tprogFail hm' =>
      rw [hmap, hm] at hm'
      cases hm'
      exact hs.raise_of_periodMap hm
  | spstart | sppushFull _ | sppushRoom _ => cases hport

/-- A Spreader command reads no more than Spreader state and the count of draws. -/
theorem CommandEffect.sameSpreader_of_sameSpreader {i : Instr} {s t s' t' : State} (h : CommandEffect s i t)
    (h' : CommandEffect s' i t') (hport : i.port = .sprCmd) (hs : SameSpreader s s') (hd : s'.draws = s.draws) :
    SameSpreader t t' ∧ t'.draws = t.draws := by
  cases h with
  | lcgnext | frqnext | tprogPair _ | tprogFail _ | stsig _ => cases hport
  | spstart =>
    cases h'
    exact ⟨(hs.setIdx 0).setSprCode _, hd⟩
  | sppushFull hi =>
    cases h' with
    | sppushFull _ => exact ⟨(hs.setSprCode _).setSprFFull true, hd⟩
    | sppushRoom hi' => exact absurd (hs.idx ▸ hi) hi'
  | sppushRoom hi =>
    cases h' with
    | sppushFull hi' => exact absurd (hs.idx ▸ hi') hi
    | sppushRoom _ =>
      rw [hs.product hd, hs.drawsAfterPush hd]
      exact ⟨((hs.appendSample _).setDraws _).setSprCode _, rfl⟩

/-! ### Reset -/

/-- Resetting puts every piece of the block's state at its value of 10_state.md R34. -/
theorem applyReset_atReset (s : State) : (applyReset s).AtReset s.params.seed s.pn where
  lcg := rfl
  freq := rfl
  timPsc := rfl
  timArr := rfl
  outEn := rfl
  statusSig := rfl
  hopCode := rfl
  hopFIll := rfl
  hopFUnach := rfl
  pn := rfl
  sampleIn := rfl
  idx := rfl
  modOut := rfl
  modByte := Memory.read_nil
  sprCode := rfl
  sprFIll := rfl
  sprFFull := rfl

end Sys2Proof.Machine
end

section
/-! The statements on the block's state (10_state.md), from the facts above. -/

namespace Sys2Proof.Machine

/-- Settles O37: each kind of step keeps the invariant, the commands by `CommandEffect.inv`. -/
theorem everyStepKeepsTheInvariant : Obligations.EveryStepKeepsTheInvariant := by
  intro s t hs h
  have taken : ∀ rest r, ((s.setPending rest).setResponse r).Inv := fun _ _ => hs.of_eq rfl rfl rfl rfl rfl rfl
  cases step_effect h with
  | idle _ ht => rw [ht]; exact hs
  | drive b rest _ ht =>
    have hp : (s.setPending rest).Inv := hs.of_eq rfl rfl rfl rfl rfl rfl
    rw [ht]; exact hp.driveReset b
  | read _ rest r _ ht => rw [ht]; exact taken rest r
  | writeFreq _ _ _ _ ht | writeSample _ _ _ _ ht => rw [ht]; exact hs.of_eq rfl rfl rfl rfl rfl rfl
  | command p w rest _ ht =>
    rcases runCommand_effect ht with ⟨i, -, -, he⟩ | rfl
    · exact he.inv (taken rest .done)
    · exact (taken rest .done).raise _

/-- Settles O21: only a command step can move STATUS_SIG, and there only STSIG, whose word is known. -/
theorem onlyStsigChangesTheStatusSignal : Obligations.OnlyStsigChangesTheStatusSignal := by
  intro s t h hreset hne
  cases step_effect h with
  | idle _ ht | read _ _ _ _ ht | writeFreq _ _ _ _ ht | writeSample _ _ _ _ ht =>
    subst ht
    exact absurd rfl hne
  | drive b rest hp _ => exact absurd ⟨b, rest, hp⟩ hreset
  | command p w rest hp ht =>
    rcases runCommand_effect ht with ⟨i, hport, hw, he⟩ | rfl
    · rcases he.statusSig with hsame | hi
      · exact absurd hsame hne
      · rw [hi] at hport hw
        rw [← hport, hw, encode_stsig] at hp
        exact ⟨rest, hp⟩
    · obtain ⟨_, _, _, _, _, _, he⟩ := raise_frame (.illegal p.unit) ((s.setPending rest).setResponse .done)
      exact absurd (by rw [he]; rfl) hne

/-- Settles O35: a command step is a write to its own port, and leaves the other unit's code. -/
theorem resultCodesAreWrittenByTheirOwnPort : Obligations.ResultCodesAreWrittenByTheirOwnPort := by
  intro s t h hreset
  cases step_effect h with
  | idle _ ht | read _ _ _ _ ht | writeFreq _ _ _ _ ht | writeSample _ _ _ _ ht =>
    rw [ht]
    exact ⟨fun _ => rfl, fun _ => rfl⟩
  | drive b rest hp _ => exact absurd ⟨b, rest, hp⟩ hreset
  | command p w rest hp ht =>
    cases p with
    | hopCmd => exact ⟨fun hno => absurd hp (hno w rest), fun _ => (runCommand_hopper_sameSpreader ht).sprCode⟩
    | sprCmd => exact ⟨fun _ => (runCommand_spreader_sameHopper ht).hopCode, fun hno => absurd hp (hno w rest)⟩

/-- Settles O36: no kind of step writes the parameters or the chips; a reset copies them. -/
theorem parametersAndChipsNeverChange : Obligations.ParametersAndChipsNeverChange := by
  intro s t h
  cases step_effect h with
  | idle _ ht | read _ _ _ _ ht | writeFreq _ _ _ _ ht | writeSample _ _ _ _ ht => rw [ht]; exact ⟨rfl, rfl⟩
  | drive b rest _ ht =>
    rcases driveReset_cases b (s.setPending rest) with ⟨-, hd⟩ | ⟨-, -, hd⟩ | ⟨-, -, hd⟩ <;> rw [ht, hd] <;>
      exact ⟨rfl, rfl⟩
  | command p w rest _ ht =>
    rcases runCommand_effect ht with ⟨i, -, -, he⟩ | rfl
    · exact he.params_pn
    · obtain ⟨_, _, _, _, _, _, he⟩ := raise_frame (.illegal p.unit) ((s.setPending rest).setResponse .done)
      rw [he]
      exact ⟨rfl, rfl⟩

/-- Settles O39, by induction on the stores. -/
theorem buffersThatReadAlikeAreEqual : Obligations.BuffersThatReadAlikeAreEqual :=
  fun _ _ hm hn h => Memory.ext_of_wfFrom hm hn h

/-- Settles O42: each listed pair is a readable register's offset and its `readReg`. -/
theorem registerReadsAnswerTheState : Obligations.RegisterReadsAnswerTheState := by
  refine ⟨fun s rest off v hs hmem => ?_, fun s rest hs hfit => ?_, fun s rest hs hfit => ?_⟩
  · have listed : ∃ r, r ≠ .hopCmd ∧ r ≠ .sprCmd ∧ off = regOffset r ∧ v = readReg r s := by
      simp only [List.mem_cons, List.not_mem_nil, or_false, Prod.mk.injEq] at hmem
      rcases hmem with h | h | h | h | h | h | h | h | h | h | h
      · exact ⟨.hopResult, by decide, by decide, h.1, h.2.trans (resultWord_eq_setWidth _).symm⟩
      · exact ⟨.lcgState, by decide, by decide, h⟩
      · exact ⟨.freqLo, by decide, by decide, h⟩
      · exact ⟨.freqHi, by decide, by decide, h⟩
      · exact ⟨.timPsc, by decide, by decide, h⟩
      · exact ⟨.timArr, by decide, by decide, h⟩
      · exact ⟨.sprResult, by decide, by decide, h.1, h.2.trans (resultWord_eq_setWidth _).symm⟩
      · exact ⟨.sampleIn, by decide, by decide, h⟩
      · exact ⟨.sprIdx, by decide, by decide, h⟩
      · exact ⟨.modOut, by decide, by decide, h⟩
      · exact ⟨.pnBits, by decide, by decide, h.1, h.2.trans (pnBitsWord_eq_setWidth s).symm⟩
    obtain ⟨r, h1, h2, rfl, rfl⟩ := listed
    exact step_read_register hs h1 h2
  · exact ⟨s.timPsc, step_read_register (r := .timPsc) hs (by decide) (by decide), rfl,
      fun _ hi => getLsbD_of_toNat_lt hfit hi⟩
  · exact ⟨s.timArr, step_read_register (r := .timArr) hs (by decide) (by decide), rfl,
      fun _ hi => getLsbD_of_toNat_lt hfit hi⟩

/-- Settles O43, with the words of the two registers read bit by bit. -/
theorem statusRegistersShowTheFlags : Obligations.StatusRegistersShowTheFlags := by
  intro s rest hreleased
  constructor
  · intro hp
    exact ⟨hopStatWord s, step_read_register (r := .hopStat) ⟨hreleased, hp⟩ (by decide) (by decide),
      getLsbD_hopStatWord s⟩
  · intro hp
    exact ⟨sprStatWord s, step_read_register (r := .sprStat) ⟨hreleased, hp⟩ (by decide) (by decide),
      getLsbD_sprStatWord s⟩

/-- Settles O46: the two halves of FREQ are written apart, SAMPLE_IN whole. -/
theorem operandWritesKeepEveryBit : Obligations.OperandWritesKeepEveryBit := by
  intro s v rest
  refine ⟨fun hs => ?_, fun hs => ?_, fun hs => ?_⟩
  · exact ⟨_, step_write_register (r := .freqLo) hs rfl, rfl, freqLow_withFreqLow s.freq v,
      freqHigh_withFreqLow s.freq v⟩
  · exact ⟨_, step_write_register (r := .freqHi) hs rfl, rfl, freqHigh_withFreqHigh s.freq v,
      freqLow_withFreqHigh s.freq v⟩
  · exact step_write_register (r := .sampleIn) hs rfl

/-- Settles O48: the frame of each unit's commands, and what they read. -/
theorem commandsStayInTheirUnit : Obligations.CommandsStayInTheirUnit := by
  intro i s t h
  have he := exec_effect h
  refine ⟨fun hport => ?_, fun hport => ?_⟩
  · obtain ⟨hspr, hdraws⟩ := he.sameSpreader hport
    exact ⟨hspr, hdraws, fun s' t' hs hp h' => he.sameHopper_of_sameHopper (exec_effect h') hport hs hp⟩
  · exact ⟨he.sameHopper hport,
      fun s' t' hs hd h' => he.sameSpreader_of_sameSpreader (exec_effect h') hport hs hd⟩

/-- Settles O7: the case of a step that idles. -/
theorem noPendingEventChangesNothing : Obligations.NoPendingEventChangesNothing :=
  fun _ h => step_idle h

/-- Settles O32: `State.reset` is what a reset makes of it. -/
theorem resetStateHasTheListedValues : Obligations.ResetStateHasTheListedValues :=
  applyReset_atReset State.reset

end Sys2Proof.Machine
end

section
/-! SUPPORT. What bus admission refuses, what one access reads and writes of each unit, and lists of accesses unit by
unit (20_memory.md). -/

namespace Sys2Proof.Machine

/-! ### Admission is R44, clause by clause (20_memory.md) -/

/-- A register stands at a 4-byte aligned offset of register space (10_state.md R30). -/
theorem regOffset_aligned (r : Reg) :
    ((regOffset r).toNat < 0x20 ∨ (0x40 ≤ (regOffset r).toNat ∧ (regOffset r).toNat < 0x5C)) ∧
      (regOffset r).toNat % 4 = 0 := by
  cases r <;> decide

/-- A byte of the frame window stands at 0x200 and its index (R40). -/
theorem toNat_of_regionAt_frame {off : Offset} {j : Nat} (h : regionAt off = .frame j) :
    off.toNat = 0x200 + j ∧ j ≤ 400 := by
  rcases regionAt_cases off with ⟨r, h', -⟩ | ⟨h', -⟩ | ⟨j', h', hj⟩ | ⟨h', -⟩ <;> rw [h] at h' <;> cases h'
  exact hj

/-- With reset released, a 32-bit access to a register is refused for its direction alone (R44(d), (e)). -/
theorem not_notAdmitted_register {a : Access} {r : Reg} (hoff : accessOffset a = (regOffset r).toNat)
    (hw : accessWidth a = .word)
    (hwrite : accessWrites a = true →
      (regOffset r).toNat ∉ [0x04, 0x08, 0x0C, 0x18, 0x1C, 0x44, 0x48, 0x50, 0x54, 0x58])
    (hread : accessWrites a = false → (regOffset r).toNat ∉ [0x00, 0x40]) : ¬ NotAdmitted false a := by
  obtain ⟨hspace, halign⟩ := regOffset_aligned r
  rw [← hoff] at hspace halign hwrite hread
  intro h
  cases h with
  | unmapped h => omega
  | registerSpace _ hbad => exact absurd hbad (by simp [hw, halign])
  | frameWindow h _ => omega
  | writeReadOnly h hdir => exact hwrite hdir h
  | readWriteOnly h hdir => exact hread hdir h
  | whileReset h => cases h

/-- With reset released, an 8-bit read of a frame byte is never refused (R43). -/
theorem not_notAdmitted_frame {a : Access} {j : Nat} (hoff : accessOffset a = 0x200 + j) (hj : j ≤ 400)
    (hw : accessWidth a = .byte) (hread : accessWrites a = false) : ¬ NotAdmitted false a := by
  intro h
  cases h with
  | unmapped h => omega
  | registerSpace h _ => omega
  | frameWindow _ hbad => simp [hw, hread] at hbad
  | writeReadOnly _ hdir => simp [hread] at hdir
  | readWriteOnly h _ => simp only [List.mem_cons, List.not_mem_nil, or_false] at h; omega
  | whileReset h => cases h

/-- What admission lets through, no clause of R44 refuses. -/
theorem not_notAdmitted_of_admission_ok {line : Bool} {a : Access} {act : BusAction}
    (h : admission line a = .ok act) : ¬ NotAdmitted line a := by
  obtain ⟨rfl, hact⟩ := admit_ok h
  rcases hact with ⟨off, r, rfl, hr, h1, h2, -⟩ | ⟨off, j, rfl, hr, -⟩ | ⟨off, v, rfl, hr, -⟩ |
    ⟨off, v, rfl, hr, -⟩ | ⟨off, v, rfl, hr, -⟩ | ⟨off, v, rfl, hr, -⟩ | ⟨off, v, rfl, hr, -⟩
  · obtain rfl := eq_regOffset_of_regionAt hr
    refine not_notAdmitted_register rfl rfl nofun fun _ => ?_
    cases r with
    | hopCmd => exact absurd rfl h1
    | sprCmd => exact absurd rfl h2
    | _ => decide
  · obtain ⟨hoff, hj⟩ := toNat_of_regionAt_frame hr
    exact not_notAdmitted_frame hoff hj rfl rfl
  all_goals
    obtain rfl := eq_regOffset_of_regionAt hr
    exact not_notAdmitted_register rfl rfl (fun _ => by decide) nofun

/-- What admission refuses, a clause of R44 refuses. -/
theorem notAdmitted_of_admission_error {line : Bool} {a : Access} {c : BusErrorCause}
    (h : admission line a = .error c) : NotAdmitted line a := by
  cases line with
  | true => exact .whileReset rfl
  | false =>
    have narrow : ∀ r, accessOffset a = (regOffset r).toNat → accessWidth a ≠ .word → NotAdmitted false a := by
      intro r hoff hw
      obtain ⟨hspace, -⟩ := regOffset_aligned r
      exact .registerSpace (by omega) (.inl hw)
    cases a with
    | read w off =>
      have hacc : accessOffset (.read w off) = off.toNat := rfl
      rcases regionAt_cases off with ⟨r, hr, hoff⟩ | ⟨-, hspace, halign⟩ | ⟨j, hr, hoff, hj⟩ | ⟨-, hun⟩
      · by_cases hw : w = .word
        · simp only [admission, admitReleased, hr, if_pos hw] at h
          subst hoff
          cases r with
          | hopCmd | sprCmd => exact .readWriteOnly (by simp [accessOffset, regOffset]) rfl
          | _ => cases h
        · exact narrow r (congrArg BitVec.toNat hoff) hw
      · exact .registerSpace (by omega) (.inr halign)
      · refine .frameWindow (by omega) (.inr fun hw : w = .byte => ?_)
        simp [admission, admitReleased, hr, hw] at h
      · exact .unmapped (by omega)
    | write w off v =>
      have hacc : accessOffset (.write w off v) = off.toNat := rfl
      rcases regionAt_cases off with ⟨r, hr, hoff⟩ | ⟨-, hspace, halign⟩ | ⟨j, -, hoff, hj⟩ | ⟨-, hun⟩
      · by_cases hw : w = .word
        · simp only [admission, admitReleased, hr, if_pos hw] at h
          subst hoff
          cases r with
          | hopCmd | sprCmd | freqLo | freqHi | sampleIn => cases h
          | _ => exact .writeReadOnly (by simp [accessOffset, regOffset]) rfl
        · exact narrow r (congrArg BitVec.toNat hoff) hw
      · exact .registerSpace (by omega) (.inr halign)
      · exact .frameWindow (by omega) (.inl rfl)
      · exact .unmapped (by omega)

/-! ### Steps that take an access or a read -/

/-- A step takes the first pending event as if the host issued it now, before the others. -/
theorem step_eq_issue {s : State} {e : HostEvent} {rest : List HostEvent} (h : s.pending = e :: rest) :
    step s = issue e (s.setPending rest) := by
  rw [issue_eq, step, takeEvent, h]

/-- What an admitted access leaves pending is what was pending before. -/
theorem perform_keeps_pending {act : BusAction} {s t : State} (h : perform act s = .next t) :
    t.pending = s.pending := by
  obtain ⟨t', ht', hp, -⟩ := perform_pending act s []
  rw [ht'] at h
  cases h
  exact hp

/-- An 8-bit read of a byte of the frame window answers it and changes nothing else (R46). -/
theorem step_read_frame {s : State} {j : Nat} {rest : List HostEvent} (hj : j ≤ 400)
    (hs : s.NextAccess (.read .byte (BitVec.ofNat 10 (0x200 + j))) rest) :
    step s = .next { s with pending := rest, response := .byte (s.frameByte j) } :=
  (step_eq_issue hs.pending).trans (issue_rdb (s := s.setPending rest) hs.released hj)

/-! ### The byte a push leaves in the frame (20_memory.md R41) -/

/-- After a push at index `i`, byte `4i + k` of MODBUF is byte `k` of MOD_OUT. -/
theorem CommandEffect.sppush_modByte {s t : State} (h : CommandEffect s .sppush t) (hwf : Memory.wf s.modbuf = true)
    (hi : s.idx.val < 100) {k : Nat} (hk : k < 4) : t.modByte (4 * s.idx.val + k) = wordByte t.modOut k := by
  cases h with
  | sppushFull hfull => omega
  | sppushRoom _ =>
    have hread := Memory.read_storeSample hwf hi s.product (4 * s.idx.val + k)
    rw [if_pos (by omega), Nat.add_sub_cancel_left] at hread
    exact hread

/-! ### Agreement on one unit -/

/-- Two states agree on a unit and on what its accesses read beside its own state: the parameters for the Hopper, the
count of draws for the Spreader. -/
def SameUnit (u : UnitId) (s t : State) : Prop :=
  match u with
  | .hopper => SameHopper s t ∧ t.params = s.params
  | .spreader => SameSpreader s t ∧ t.draws = s.draws

theorem SameUnit.refl (u : UnitId) (s : State) : SameUnit u s s := by
  cases u with
  | hopper => exact ⟨⟨rfl, rfl, rfl, rfl, rfl, rfl, rfl, rfl, rfl⟩, rfl⟩
  | spreader => exact ⟨⟨rfl, rfl, rfl, rfl, rfl, fun _ => rfl, rfl, rfl, rfl⟩, rfl⟩

/-- Two states that agree with a third agree. -/
theorem SameUnit.of_common {u : UnitId} {s t v : State} (h : SameUnit u s t) (k : SameUnit u s v) :
    SameUnit u t v := by
  cases u with
  | hopper =>
    obtain ⟨h, hp⟩ := h
    obtain ⟨k, kp⟩ := k
    exact ⟨⟨k.lcg.trans h.lcg.symm, k.freq.trans h.freq.symm, k.timPsc.trans h.timPsc.symm,
      k.timArr.trans h.timArr.symm, k.outEn.trans h.outEn.symm, k.statusSig.trans h.statusSig.symm,
      k.hopCode.trans h.hopCode.symm, k.hopFIll.trans h.hopFIll.symm, k.hopFUnach.trans h.hopFUnach.symm⟩,
      kp.trans hp.symm⟩
  | spreader =>
    obtain ⟨h, hd⟩ := h
    obtain ⟨k, kd⟩ := k
    exact ⟨⟨k.pn.trans h.pn.symm, k.sampleIn.trans h.sampleIn.symm, k.idx.trans h.idx.symm,
      k.modOut.trans h.modOut.symm, k.modbuf.trans h.modbuf.symm, fun j => (k.modByte j).trans (h.modByte j).symm,
      k.sprCode.trans h.sprCode.symm, k.sprFIll.trans h.sprFIll.symm, k.sprFFull.trans h.sprFFull.symm⟩,
      kd.trans hd.symm⟩

theorem SameUnit.symm {u : UnitId} {s t : State} (h : SameUnit u s t) : SameUnit u t s :=
  h.of_common (.refl u s)

/-- The bus answer is no state of a unit. -/
theorem SameUnit.setResponse {u : UnitId} {s t : State} (h : SameUnit u s t) (q r : Response) :
    SameUnit u (s.setResponse q) (t.setResponse r) := by
  cases u with
  | hopper => exact ⟨{ h.1 with }, h.2⟩
  | spreader => exact ⟨{ h.1 with }, h.2⟩

/-- Two states that agree on both units, the reset input and the events pending differ in the bus answer at most. -/
theorem eq_but_response_of_sameUnit {s t : State} (h : ∀ u, SameUnit u s t) (hline : t.resetLine = s.resetLine)
    (hpending : t.pending = s.pending) : t = { s with response := t.response } := by
  obtain ⟨⟨h1, h2, h3, h4, h5, h6, h7, h8, h9⟩, hparams⟩ := h .hopper
  obtain ⟨⟨k1, k2, k3, k4, k5, -, k7, k8, k9⟩, hdraws⟩ := h .spreader
  rw [← h1, ← h2, ← h3, ← h4, ← h5, ← h6, ← h7, ← h8, ← h9, ← hparams, ← k1, ← k2, ← k3, ← k4, ← k5, ← k7, ← k8,
    ← k9, ← hdraws, ← hline, ← hpending]

/-! ### What a command does to each unit -/

/-- Raising an error leaves the other unit. -/
theorem raise_leaves_unit {e : BlockError} {u : UnitId} (hu : e.unit ≠ u) (s : State) : SameUnit u s (raise e s) := by
  obtain ⟨_, _, _, _, _, _, he⟩ := raise_frame e s
  cases u with
  | hopper =>
    cases h : e.unit with
    | hopper => exact absurd h hu
    | spreader => exact ⟨raise_sameHopper h s, by rw [he]⟩
  | spreader =>
    cases h : e.unit with
    | hopper => exact ⟨raise_sameSpreader h s, by rw [he]⟩
    | spreader => exact absurd h hu

/-- Raising an error reads nothing. -/
theorem SameUnit.raise {e : BlockError} {s t : State} (h : SameUnit e.unit s t) :
    SameUnit e.unit (raise e s) (raise e t) := by
  rcases e with (_ | _) | _ | _ | _
  · exact ⟨{ h.1 with hopCode := rfl, hopFIll := rfl }, h.2⟩
  · exact ⟨{ h.1 with sprCode := rfl, sprFIll := rfl }, h.2⟩
  · exact ⟨{ h.1 with hopCode := rfl, hopFUnach := rfl }, h.2⟩
  · exact ⟨{ h.1 with hopCode := rfl, hopFUnach := rfl }, h.2⟩
  · exact ⟨{ h.1 with sprCode := rfl, sprFFull := rfl }, h.2⟩

/-- Raising an error twice is raising it once. -/
theorem raise_raise (e : BlockError) (s : State) : raise e (raise e s) = raise e s := by
  rcases e with (_ | _) | _ | _ | _ <;> rfl

/-- A word on a port, legal or not, leaves the other unit. -/
theorem runCommand_leaves_unit {p : Port} {w : Word} {u : UnitId} {s t : State} (h : runCommand p w s = .next t)
    (hu : p.unit ≠ u) : SameUnit u s t := by
  rcases runCommand_effect h with ⟨i, hport, -, he⟩ | rfl
  · cases p with
    | hopCmd =>
      cases u with
      | hopper => exact absurd rfl hu
      | spreader => exact he.sameSpreader hport
    | sprCmd =>
      cases u with
      | hopper => exact ⟨he.sameHopper hport, he.params_pn.1⟩
      | spreader => exact absurd rfl hu
  · exact raise_leaves_unit (e := .illegal p.unit) hu s

/-- What a word on a port leaves in its unit depends on that unit alone. -/
theorem runCommand_sameUnit {p : Port} {w : Word} {s t s' t' : State} (h : runCommand p w s = .next t)
    (h' : runCommand p w s' = .next t') (hs : SameUnit p.unit s s') : SameUnit p.unit t t' := by
  cases hd : decode p w with
  | ok i =>
    simp only [runCommand, hd] at h h'
    have he := exec_effect h
    have he' := exec_effect h'
    have hport := (eq_encode_of_decode hd).1
    cases p with
    | hopCmd =>
      refine ⟨he.sameHopper_of_sameHopper he' hport hs.1 hs.2, ?_⟩
      rw [he'.params_pn.1, he.params_pn.1, hs.2]
    | sprCmd => exact he.sameSpreader_of_sameSpreader he' hport hs.1 hs.2
  | error e =>
    simp only [runCommand, hd] at h h'
    cases h
    cases h'
    exact SameUnit.raise (e := .illegal p.unit) hs

/-- No command touches the reset input. -/
theorem CommandEffect.resetLine {i : Instr} {s t : State} (h : CommandEffect s i t) : t.resetLine = s.resetLine := by
  cases h with
  | lcgnext | frqnext | tprogPair _ | stsig _ | spstart | sppushFull _ => rfl
  | sppushRoom _ => simp
  | @tprogFail e _ =>
    obtain ⟨_, _, _, _, _, _, he⟩ := raise_frame e s
    rw [he]

/-! ### What an admitted access does to each unit -/

/-- The unit whose state an action may write. -/
def BusAction.target : BusAction → Option UnitId
  | .readReg _ => none
  | .readFrame _ => none
  | .writeFreqLo _ => some .hopper
  | .writeFreqHi _ => some .hopper
  | .writeSampleIn _ => some .spreader
  | .command p _ => some p.unit

/-- An access writes only the unit of its bank (R40). -/
theorem bank_of_admission {line : Bool} {a : Access} {act : BusAction} {u : UnitId} (h : admission line a = .ok act)
    (hu : act.target = some u) : bank (.access a) = u := by
  obtain ⟨-, hact⟩ := admit_ok h
  rcases hact with ⟨off, r, rfl, hr, -, -, rfl⟩ | ⟨off, j, rfl, hr, rfl⟩ | ⟨off, v, rfl, hr, rfl⟩ |
    ⟨off, v, rfl, hr, rfl⟩ | ⟨off, v, rfl, hr, rfl⟩ | ⟨off, v, rfl, hr, rfl⟩ | ⟨off, v, rfl, hr, rfl⟩
  · cases hu
  · cases hu
  all_goals
    obtain rfl := eq_regOffset_of_regionAt hr
    cases hu
    rfl

/-- An access leaves a unit it does not write. -/
theorem perform_leaves_unit {act : BusAction} {u : UnitId} {s t : State} (h : perform act s = .next t)
    (hu : act.target ≠ some u) : SameUnit u s t := by
  cases act with
  | readReg _ | readFrame _ => cases h; exact (SameUnit.refl u s).setResponse s.response _
  | writeFreqLo _ | writeFreqHi _ =>
    cases h
    cases u with
    | hopper => exact absurd rfl hu
    | spreader => exact ⟨⟨rfl, rfl, rfl, rfl, rfl, fun _ => rfl, rfl, rfl, rfl⟩, rfl⟩
  | writeSampleIn _ =>
    cases h
    cases u with
    | hopper => exact ⟨⟨rfl, rfl, rfl, rfl, rfl, rfl, rfl, rfl, rfl⟩, rfl⟩
    | spreader => exact absurd rfl hu
  | command p w =>
    have hdone : SameUnit u (s.setResponse .done) s := (SameUnit.refl u s).setResponse .done s.response
    exact hdone.of_common (runCommand_leaves_unit h fun hp => hu (congrArg some hp))

/-- What an access leaves in the unit it writes depends on that unit alone. -/
theorem perform_sameUnit {act : BusAction} {u : UnitId} {s t s' t' : State} (h : perform act s = .next t)
    (h' : perform act s' = .next t') (hu : act.target = some u) (hs : SameUnit u s s') : SameUnit u t t' := by
  cases act with
  | readReg _ | readFrame _ => cases hu
  | writeFreqLo v =>
    cases h; cases h'; cases hu
    exact ⟨{ hs.1 with freq := congrArg (withFreqLow · v) hs.1.freq }, hs.2⟩
  | writeFreqHi v =>
    cases h; cases h'; cases hu
    exact ⟨{ hs.1 with freq := congrArg (withFreqHigh · v) hs.1.freq }, hs.2⟩
  | writeSampleIn v =>
    cases h; cases h'; cases hu
    exact ⟨{ hs.1 with sampleIn := rfl }, hs.2⟩
  | command p w =>
    cases hu
    exact runCommand_sameUnit h h' (hs.setResponse .done .done)

/-- No access touches the reset input. -/
theorem perform_keeps_resetLine {act : BusAction} {s t : State} (h : perform act s = .next t) :
    t.resetLine = s.resetLine := by
  cases act with
  | readReg _ | readFrame _ | writeFreqLo _ | writeFreqHi _ | writeSampleIn _ => cases h; rfl
  | command p w =>
    rcases runCommand_effect h with ⟨i, -, -, he⟩ | rfl
    · exact he.resetLine
    · obtain ⟨_, _, _, _, _, _, he⟩ := raise_frame (.illegal p.unit) (s.setResponse .done)
      rw [he]
      rfl

/-! ### Accesses issued one after another -/

/-- The event is an access that admission lets through. -/
def Admitted (line : Bool) (e : HostEvent) : Prop := ∃ a act, e = .access a ∧ admission line a = .ok act

/-- An admitted access completes, and leaves the reset input and what is pending. -/
theorem Admitted.issue {s : State} {e : HostEvent} (h : Admitted s.resetLine e) :
    ∃ t, issue e s = .next t ∧ t.resetLine = s.resetLine ∧ t.pending = s.pending := by
  obtain ⟨a, act, rfl, ha⟩ := h
  obtain ⟨t, ht, hp, -⟩ := perform_pending act s []
  refine ⟨t, ?_, perform_keeps_resetLine ht, hp⟩
  simp only [issue_eq, runEvent, runAccess, ha, ht]

/-- Issuing an admitted access to another bank leaves a unit. -/
theorem Admitted.issue_leaves_unit {u : UnitId} {s t : State} {e : HostEvent} (h : Admitted s.resetLine e)
    (ht : Machine.issue e s = .next t) (hu : bank e ≠ u) : SameUnit u s t := by
  obtain ⟨a, act, rfl, ha⟩ := h
  simp only [issue_eq, runEvent, runAccess, ha] at ht
  exact perform_leaves_unit ht fun htarget => hu (bank_of_admission ha htarget)

/-- What an admitted access leaves in a unit depends on that unit alone. -/
theorem Admitted.issue_sameUnit {u : UnitId} {s t s' t' : State} {e : HostEvent} (h : Admitted s.resetLine e)
    (hline : s'.resetLine = s.resetLine) (ht : Machine.issue e s = .next t) (ht' : Machine.issue e s' = .next t')
    (hs : SameUnit u s s') : SameUnit u t t' := by
  obtain ⟨a, act, rfl, ha⟩ := h
  simp only [issue_eq, runEvent, runAccess, hline, ha] at ht ht'
  by_cases hu : act.target = some u
  · exact perform_sameUnit ht ht' hu hs
  · exact ((perform_leaves_unit ht hu).of_common hs).symm.of_common (perform_leaves_unit ht' hu)

/-- Admitted accesses all complete, and leave the reset input and what is pending. -/
theorem issueAll_of_admitted {es : List HostEvent} {s : State} (h : ∀ e ∈ es, Admitted s.resetLine e) :
    ∃ t, issueAll es s = .next t ∧ t.resetLine = s.resetLine ∧ t.pending = s.pending := by
  induction es generalizing s with
  | nil => exact ⟨s, rfl, rfl, rfl⟩
  | cons e es ih =>
    obtain ⟨he, hes⟩ := List.forall_mem_cons.1 h
    obtain ⟨s1, h1, hline, hpending⟩ := he.issue
    rw [← hline] at hes
    obtain ⟨t, ht, htl, htp⟩ := ih hes
    exact ⟨t, by rw [issueAll_cons, h1, andThen_next, ht], htl.trans hline, htp.trans hpending⟩

/-- Accesses that all complete are all admitted. -/
theorem admitted_of_issueAll {es : List HostEvent} {s t : State} (hes : AccessesOnly es)
    (h : issueAll es s = .next t) : ∀ e ∈ es, Admitted s.resetLine e := by
  induction es generalizing s with
  | nil => exact fun e he => absurd he List.not_mem_nil
  | cons e es ih =>
    obtain ⟨⟨a, rfl⟩, hrest⟩ := List.forall_mem_cons.1 hes
    obtain ⟨s1, h1, h2⟩ := andThen_eq_next.1 h
    have he : Admitted s.resetLine (.access a) := by
      cases ha : admission s.resetLine a with
      | ok act => exact ⟨a, act, rfl, ha⟩
      | error c => simp [issue_eq, runEvent, runAccess, ha] at h1
    obtain ⟨s2, h1', hline, -⟩ := he.issue
    rw [h1] at h1'
    cases h1'
    exact List.forall_mem_cons.2 ⟨he, hline ▸ ih hrest h2⟩

/-- What a list of accesses leaves in a unit is what its accesses to that unit's bank leave there, from any state that
agrees on the unit. -/
theorem issueAll_sameUnit_filter {u : UnitId} {es : List HostEvent} {s s' t t' : State}
    (hes : ∀ e ∈ es, Admitted s.resetLine e) (hline : s'.resetLine = s.resetLine) (hs : SameUnit u s s')
    (h : issueAll es s = .next t) (h' : issueAll (es.filter fun e => bank e = u) s' = .next t') : SameUnit u t t' := by
  induction es generalizing s s' with
  | nil => cases h; cases h'; exact hs
  | cons e es ih =>
    obtain ⟨he, hrest⟩ := List.forall_mem_cons.1 hes
    obtain ⟨s1, h1, hl, -⟩ := he.issue
    rw [issueAll_cons, h1, andThen_next] at h
    rw [← hl] at hrest
    by_cases hu : bank e = u
    · have he' : Admitted s'.resetLine e := by rw [hline]; exact he
      obtain ⟨s1', h1', hl', -⟩ := he'.issue
      rw [List.filter_cons_of_pos (by simpa using hu), issueAll_cons, h1', andThen_next] at h'
      exact ih hrest (by rw [hl', hl, hline]) (he.issue_sameUnit hline h1 h1' hs) h h'
    · rw [List.filter_cons_of_neg (by simpa using hu)] at h'
      exact ih hrest (hline.trans hl.symm) ((he.issue_leaves_unit h1 hu).of_common hs) h h'

/-- Two lists whose accesses to a unit's bank are the same, in the same order, leave the same in that unit. -/
theorem issueAll_sameUnit {u : UnitId} {es fs : List HostEvent} {s t v : State}
    (hes : ∀ e ∈ es, Admitted s.resetLine e) (hfs : ∀ e ∈ fs, Admitted s.resetLine e)
    (hfilter : (es.filter fun e => bank e = u) = fs.filter fun e => bank e = u)
    (ht : issueAll es s = .next t) (hv : issueAll fs s = .next v) : SameUnit u t v := by
  have hsub : ∀ e ∈ es.filter fun e => bank e = u, Admitted s.resetLine e :=
    fun e he => hes e (List.mem_of_mem_filter he)
  obtain ⟨w, hw, -, -⟩ := issueAll_of_admitted hsub
  have htw := issueAll_sameUnit_filter hes rfl (.refl u s) ht hw
  rw [hfilter] at hw
  have hvw := issueAll_sameUnit_filter hfs rfl (.refl u s) hv hw
  exact htw.symm.of_common hvw.symm

/-- Two lists with the same accesses to each bank have the same accesses. -/
theorem mem_of_filter_bank_eq {es fs : List HostEvent}
    (h : ∀ u, (es.filter fun e => bank e = u) = fs.filter fun e => bank e = u) {e : HostEvent} (he : e ∈ fs) :
    e ∈ es := by
  have hmem : e ∈ fs.filter fun f => bank f = bank e := List.mem_filter.2 ⟨he, by simp⟩
  rw [← h] at hmem
  exact List.mem_of_mem_filter hmem

/-- Running a machine that has exactly these events pending is issuing them. -/
theorem run_pending_eq_issueAll (es : List HostEvent) (s : State) :
    run es.length { s with pending := es } = issueAll es (s.setPending []) := by
  rw [← run_issueAll, State.setPending_pending, List.append_nil]
  rfl

end Sys2Proof.Machine
end

section
/-! The statements on the bus (20_memory.md), from the facts above. -/

namespace Sys2Proof.Machine

/-- Settles O8: idling takes none, driving reset and an admitted access take the first. -/
theorem stepTakesOneEventInOrder : Obligations.StepTakesOneEventInOrder := by
  intro s t h
  rcases step_next_cases h with ⟨hp, rfl⟩ | ⟨b, rest, hp, rfl⟩ | ⟨a, rest, act, hp, -, ht⟩
  · rw [hp]; rfl
  · rw [hp]
    rcases driveReset_cases b (s.setPending rest) with ⟨-, hd⟩ | ⟨-, -, hd⟩ | ⟨-, -, hd⟩ <;> rw [hd] <;> rfl
  · rw [hp]
    exact perform_keeps_pending ht

/-- Settles O22: TPROG reads FREQ and the parameters, which it leaves; STSIG and SPSTART read nothing. -/
theorem repeatedCommandsChangeNothingMore : Obligations.RepeatedCommandsChangeNothingMore := by
  intro i s t hi h
  cases exec_effect h with
  | tprogPair hm => exact exec_tprog_pair hm
  | @tprogFail e hm =>
    have hm' : periodMap (raise e s).params (raise e s).freq.toNat = .unachievable e := by
      obtain ⟨_, _, _, _, _, _, he⟩ := raise_frame e s
      rw [he]
      exact hm
    rw [exec_tprog_fail hm', raise_raise]
  | stsig imm => exact exec_stsig imm _
  | spstart => exact exec_spstart _
  | lcgnext | frqnext | sppushFull _ | sppushRoom _ =>
    rcases hi with hi | ⟨imm, hi⟩ | hi <;> cases hi

/-- Settles O45: the frame byte is 0xAA at 0 and a byte of MODBUF after it. -/
theorem frameWindowReadsEveryByte : Obligations.FrameWindowReadsEveryByte :=
  fun _ _ _ hj hs => step_read_frame hj hs

/-- Settles O28: the byte the push stored, read through the window. -/
theorem frameWindowShowsTheLastPush : Obligations.FrameWindowShowsTheLastPush := by
  intro s t k rest hwf hi hk h hs
  have hbyte : t.frameByte (1 + 4 * s.idx.val + k) = wordByte t.modOut k := by
    rw [State.frameByte, if_neg (by omega), ← (exec_effect h).sppush_modByte hwf hi hk]
    congr 1
    omega
  rw [step_read_frame (by omega) hs, hbyte]
  rfl

/-- Settles O40: admission decides the step, and admission is R44. -/
theorem busErrorExactlyForAccessesNotAdmitted : Obligations.BusErrorExactlyForAccessesNotAdmitted := by
  intro s a rest hp
  cases ha : admission s.resetLine a with
  | error c =>
    have hstep := step_not_admitted hp ha
    have hna := notAdmitted_of_admission_error ha
    exact ⟨iff_of_true ⟨c, hstep⟩ hna, iff_of_false (by simp [hstep]) (not_not_intro hna)⟩
  | ok act =>
    obtain ⟨t, ht, -, -⟩ := perform_pending act (s.setPending rest) []
    have hstep := (step_admitted hp ha).trans ht
    have hok := not_notAdmitted_of_admission_ok ha
    exact ⟨iff_of_false (by simp [hstep]) hok, iff_of_true ⟨t, hstep⟩ hok⟩

/-- Settles O41: the only actions a read is admitted as are the two reads. -/
theorem readsHaveNoSideEffect : Obligations.ReadsHaveNoSideEffect := by
  intro s t w off rest hp h
  cases ha : admission s.resetLine (.read w off) with
  | error c => rw [step_not_admitted hp ha] at h; cases h
  | ok act =>
    rw [step_admitted hp ha] at h
    obtain ⟨-, hact⟩ := admit_ok ha
    rcases hact with ⟨_, r, -, -, -, -, rfl⟩ | ⟨_, j, -, -, rfl⟩ | ⟨_, _, hw, -⟩ | ⟨_, _, hw, -⟩ | ⟨_, _, hw, -⟩ |
      ⟨_, _, hw, -⟩ | ⟨_, _, hw, -⟩
    · cases h; rfl
    · cases h; rfl
    all_goals cases hw

/-- Settles O49: each unit ends as its own accesses, alone, leave it, and those are the same in both lists. -/
theorem interleavingsOfTheUnitsEndAlike : Obligations.InterleavingsOfTheUnitsEndAlike := by
  intro s t es fs hes _ hhop hspr h
  have hfilter : ∀ u, (es.filter fun e => bank e = u) = fs.filter fun e => bank e = u
    | .hopper => hhop
    | .spreader => hspr
  rw [run_pending_eq_issueAll] at h
  have hadm := admitted_of_issueAll hes h
  have hadm' : ∀ e ∈ fs, Admitted (s.setPending []).resetLine e :=
    fun e he => hadm e (mem_of_filter_bank_eq hfilter he)
  obtain ⟨t', ht', htl, htp⟩ := issueAll_of_admitted hadm
  rw [h] at ht'
  cases ht'
  obtain ⟨v, hv, hvl, hvp⟩ := issueAll_of_admitted hadm'
  refine ⟨v, (run_pending_eq_issueAll fs s).trans hv, ?_⟩
  exact eq_but_response_of_sameUnit (fun u => issueAll_sameUnit hadm hadm' (hfilter u) h hv) (hvl.trans htl.symm)
    (hvp.trans htp.symm)

/-- Settles O47: the block's 0x400 bytes are one aligned run of addresses. -/
theorem hostAddressesNameTheOffsets : Obligations.HostAddressesNameTheOffsets := by
  refine ⟨Nat.mul_mod_right _ _, fun _ => rfl, fun off => ?_, fun addr off h => ?_, fun addr => ?_⟩
  · have := off.isLt
    rw [blockOffset, hostAddress, if_pos (by omega), Nat.add_sub_cancel_left, BitVec.ofNat_toNat, BitVec.setWidth_eq]
  · rw [blockOffset] at h
    split_ifs at h with hin
    cases h
    rw [hostAddress, BitVec.toNat_ofNat]
    omega
  · rw [blockOffset]
    split_ifs with hin
    · exact iff_of_false (by simp) (by omega)
    · exact iff_of_true rfl (by omega)

end Sys2Proof.Machine
end

section
/-! SUPPORT. Decoding as the inverse of encoding, the seven legal words, the step that takes a command word, and SETFREQ
(30_encoding.md). -/

namespace Sys2Proof.Machine

/-! ### Decoding inverts encoding (30_encoding.md R62, R64) -/

/-- A port and a word decode to an instruction exactly when they are its own. -/
theorem decode_eq_ok_iff {p : Port} {w : Word} {i : Instr} : decode p w = .ok i ↔ p = i.port ∧ w = encode i := by
  constructor
  · intro h
    obtain ⟨hport, hw⟩ := eq_encode_of_decode h
    exact ⟨hport.symm, hw⟩
  · rintro ⟨rfl, rfl⟩
    exact decode_encode_port i

/-- A pair is illegal exactly when it decodes to no instruction. -/
theorem decode_eq_error_iff {p : Port} {w : Word} : (∃ e, decode p w = .error e) ↔ ∀ i, decode p w ≠ .ok i := by
  cases decode p w <;> simp

/-! ### The words of the map (30_encoding.md R64, R65); STSIG's two are `encode_stsig` -/

theorem encode_lcgnext : encode .lcgnext = 0x00000011#32 := rfl

theorem encode_frqnext : encode .frqnext = 0x00000012#32 := rfl

theorem encode_tprog : encode .tprog = 0x00000013#32 := rfl

theorem encode_spstart : encode .spstart = 0x00000021#32 := rfl

theorem encode_sppush : encode .sppush = 0x00000022#32 := rfl

/-- The mask of a format-Z row keeps the whole word. -/
theorem and_formatZMask (w : Word) : w &&& 0xFFFFFFFF#32 = w := BitVec.and_allOnes

/-- The mask of STSIG's row clears bit 8 alone: a word is its masked bits and its IMM field. -/
theorem and_formatIMask_or_imm (w : Word) :
    w &&& 0xFFFFFEFF#32 ||| fieldAt (BitVec.ofBool (w.getLsbD 8)) 8 = w := by
  have hmask : 0xFFFFFEFF#32 = ~~~fieldAt (BitVec.ofBool true) 8 := by decide
  refine BitVec.eq_of_getLsbD_eq fun j hj => ?_
  rw [BitVec.getLsbD_or, BitVec.getLsbD_and, hmask, BitVec.getLsbD_not, getLsbD_fieldAt_ofBool _ (by decide),
    getLsbD_fieldAt_ofBool _ (by decide)]
  by_cases h : j = 8
  · simp [h]
  · simp [h, hj]

/-- STSIG's row: the masked bits are the match, and bit 8 is the immediate. -/
theorem eq_encode_stsig_iff {w : Word} {imm : Bool} :
    w = encode (.stsig imm) ↔ w &&& 0xFFFFFEFF#32 = 0x00000014#32 ∧ w.getLsbD 8 = imm := by
  constructor
  · rintro rfl
    rw [encode_stsig]
    cases imm <;> decide
  · rintro ⟨hmatch, rfl⟩
    calc w = w &&& 0xFFFFFEFF#32 ||| fieldAt (BitVec.ofBool (w.getLsbD 8)) 8 := (and_formatIMask_or_imm w).symm
      _ = encode (.stsig (w.getLsbD 8)) := by rw [hmatch]; rfl

/-! ### The step that takes a command word (30_encoding.md R60, R66) -/

theorem runCommand_of_ok {p : Port} {w : Word} {i : Instr} (h : decode p w = .ok i) (s : State) :
    runCommand p w s = exec i s := by
  rw [runCommand, h]

theorem runCommand_of_error {p : Port} {w : Word} {e : DecodeError} (h : decode p w = .error e) (s : State) :
    runCommand p w s = .next (raise (.illegal p.unit) s) := by
  rw [runCommand, h]

/-- With reset released, a 32-bit write to a command register runs the word, the write taken and answered. -/
theorem step_command {s : State} {p : Port} {w : Word} {rest : List HostEvent}
    (hs : s.NextAccess (.write .word (portOffset p) w) rest) :
    step s = runCommand p w ((s.setPending rest).setResponse .done) := by
  cases p with
  | hopCmd => exact step_write_register (r := .hopCmd) hs rfl
  | sprCmd => exact step_write_register (r := .sprCmd) hs rfl

/-! ### SETFREQ (30_encoding.md R70) -/

/-- Writing both halves of a frequency writes the frequency, whatever FREQ held. -/
theorem withFreqHigh_withFreqLow (f v : DWord) : withFreqHigh (withFreqLow f (freqLow v)) (freqHigh v) = v :=
  freq_ext (by simp) (by simp)

/-- `WR FREQ_LO`. -/
theorem issue_freqLo {s : State} (v : Word) (h : s.resetLine = false) :
    issue (wrEvent .freqLo v) s = .next ((s.setFreq (withFreqLow s.freq v)).setResponse .done) :=
  issue_admitted h (act := .writeFreqLo v) rfl

/-- `WR FREQ_HI`. -/
theorem issue_freqHi {s : State} (v : Word) (h : s.resetLine = false) :
    issue (wrEvent .freqHi v) s = .next ((s.setFreq (withFreqHigh s.freq v)).setResponse .done) :=
  issue_admitted h (act := .writeFreqHi v) rfl

theorem issueAll_singleton (e : HostEvent) (s : State) : issueAll [e] s = issue e s := by
  rw [issueAll_cons]
  cases issue e s <;> rfl

/-- With reset released, the two accesses of SETFREQ write FREQ whole. -/
theorem issueAll_setfreq {s : State} (h : s.resetLine = false) (v : DWord) :
    issueAll (setfreqEvents v) s = .next ((s.setFreq v).setResponse .done) := by
  calc issueAll (setfreqEvents v) s
      = issue (wrEvent .freqHi (freqHigh v)) ((s.setFreq (withFreqLow s.freq (freqLow v))).setResponse .done) := by
        rw [setfreqEvents, issueAll_cons, issue_freqLo _ h, andThen_next, issueAll_singleton]
    _ = .next ((s.setFreq (withFreqHigh (withFreqLow s.freq (freqLow v)) (freqHigh v))).setResponse .done) :=
        issue_freqHi _ h
    _ = .next ((s.setFreq v).setResponse .done) := by rw [withFreqHigh_withFreqLow]

/-- A run over the first pending events is the host issuing them before the rest. -/
theorem run_eq_issueAll_of_pending {s : State} {es rest : List HostEvent} (h : s.pending = es ++ rest) :
    run es.length s = issueAll es (s.setPending rest) := by
  rw [← run_issueAll, State.setPending_pending, ← h]
  rfl

end Sys2Proof.Machine
end

section
/-! The statements on the encoding of commands (30_encoding.md), from the facts above. -/

namespace Sys2Proof.Machine

/-- Settles O1: a decoded word is its instruction's (`eq_encode_of_decode`), and every instruction's word decodes to it
(`decode_encode_port`). -/
theorem decodeGivesExactlyTheEncodedInstruction : Obligations.DecodeGivesExactlyTheEncodedInstruction :=
  fun _ _ _ _ => decode_eq_ok_iff

/-- Settles O2: the list is the port and the word of each instruction, STSIG with each immediate. -/
theorem legalPairsAreTheSevenWords : Obligations.LegalPairsAreTheSevenWords := by
  intro p w
  constructor
  · rintro ⟨i, h⟩
    obtain ⟨rfl, rfl⟩ := decode_eq_ok_iff.1 h
    cases i with
    | stsig imm => cases imm <;> decide
    | _ => decide
  · intro h
    simp only [List.mem_cons, List.not_mem_nil, or_false, Prod.mk.injEq] at h
    rcases h with ⟨rfl, rfl⟩ | ⟨rfl, rfl⟩ | ⟨rfl, rfl⟩ | ⟨rfl, rfl⟩ | ⟨rfl, rfl⟩ | ⟨rfl, rfl⟩ | ⟨rfl, rfl⟩
    · exact ⟨.lcgnext, rfl⟩
    · exact ⟨.frqnext, rfl⟩
    · exact ⟨.tprog, rfl⟩
    · exact ⟨.stsig false, rfl⟩
    · exact ⟨.stsig true, rfl⟩
    · exact ⟨.spstart, rfl⟩
    · exact ⟨.sppush, rfl⟩

/-- Settles O3: each row's port and word are its instruction's; only STSIG's mask drops a bit. -/
theorem opcodeRowsSelectByMaskAndPort : Obligations.OpcodeRowsSelectByMaskAndPort := by
  intro p w
  have formatZRow {i : Instr} {row : Word} (hrow : encode i = row) :
      decode p w = .ok i ↔ p = i.port ∧ w &&& 0xFFFFFFFF#32 = row := by
    rw [decode_eq_ok_iff, and_formatZMask, hrow]
  have formatIRow (imm : Bool) : decode p w = .ok (.stsig imm) ↔
      p = .hopCmd ∧ w &&& 0xFFFFFEFF#32 = 0x00000014#32 ∧ w.getLsbD 8 = imm :=
    decode_eq_ok_iff.trans (and_congr_right' eq_encode_stsig_iff)
  exact ⟨formatZRow encode_lcgnext, formatZRow encode_frqnext, formatZRow encode_tprog, formatIRow,
    formatZRow encode_spstart, formatZRow encode_sppush⟩

/-- Settles O6: a word that does not decode raises E_ILLEGAL on its port's unit, and none of the words the rule names is
one of the seven that decode. -/
theorem illegalWordsRaiseIllegalOnly : Obligations.IllegalWordsRaiseIllegalOnly := by
  refine ⟨fun s w rest e hs hd => ?_, fun s w rest e hs hd => ?_, fun p w named => ?_⟩
  · exact (step_command (p := .hopCmd) hs).trans (runCommand_of_error hd _)
  · exact (step_command (p := .sprCmd) hs).trans (runCommand_of_error hd _)
  · refine decode_eq_error_iff.2 fun i h => ?_
    obtain ⟨rfl, rfl⟩ := decode_eq_ok_iff.1 h
    revert named
    cases i with
    | stsig imm => cases imm <;> decide
    | _ => decide

/-- Settles O50: SETFREQ leaves FREQ = v, and the third access runs TPROG there. -/
theorem programRunsTprogOnItsOperand : Obligations.ProgramRunsTprogOnItsOperand := by
  intro s v rest hreleased hp
  calc run 3 s = issueAll (setfreqEvents v ++ [commandEvent .tprog]) (s.setPending rest) :=
        run_eq_issueAll_of_pending hp
    _ = issue (commandEvent .tprog) (((s.setPending rest).setFreq v).setResponse .done) := by
        rw [issueAll_append, issueAll_setfreq (s := s.setPending rest) hreleased, andThen_next, issueAll_singleton]
    _ = exec .tprog (((s.setPending rest).setFreq v).setResponse .done) := issue_command .tprog hreleased

/-- Settles O5: the command register's write runs the word, and the word runs what it decodes to. -/
theorem stepRunsTheDecodedCommand : Obligations.StepRunsTheDecodedCommand :=
  ⟨⟨rfl, rfl⟩, fun _ _ _ _ _ hs hd => (step_command hs).trans (runCommand_of_ok hd _)⟩

end Sys2Proof.Machine
end

section
/-! SUPPORT. The LCG: its step as arithmetic modulo LCG_M, the frequency made of its value, and which events step it
(40_lcg_frequency.md). -/

namespace Sys2Proof.Machine

/-! ### Degenerate values (40_lcg_frequency.md R85) -/

/-- The degenerate 32-bit values: the multiples of LCG_M below 2^32. -/
theorem mod_lcgM_eq_zero_iff (x : Word) :
    x.toNat % 2147483647 = 0 ↔ x = 0#32 ∨ x = 2147483647#32 ∨ x = 4294967294#32 := by
  have := x.isLt
  simp only [← BitVec.toNat_inj, BitVec.toNat_ofNat]
  omega

/-- LCG_A is coprime to LCG_M, so a step neither makes nor loses a multiple of LCG_M. -/
theorem lcgStep_mod_eq_zero_iff (x : Word) :
    (lcgStep x).toNat % 2147483647 = 0 ↔ x.toNat % 2147483647 = 0 := by
  have coprime : Nat.Coprime 2147483647 48271 := by norm_num
  rw [lcgStep_toNat, Nat.mod_mod, ← Nat.dvd_iff_mod_eq_zero, ← Nat.dvd_iff_mod_eq_zero, coprime.dvd_mul_left]

theorem iterate_lcgStep_mod_eq_zero_iff (n : Nat) (x : Word) :
    (lcgStep^[n] x).toNat % 2147483647 = 0 ↔ x.toNat % 2147483647 = 0 := by
  induction n with
  | zero => rfl
  | succ n ih => rw [Function.iterate_succ_apply', lcgStep_mod_eq_zero_iff, ih]

/-- A step gives 0 from the degenerate values only: what it gives is below LCG_M. -/
theorem lcgStep_toNat_eq_zero_iff (x : Word) : (lcgStep x).toNat = 0 ↔ x.toNat % 2147483647 = 0 := by
  have := lcgStep_le x
  rw [← lcgStep_mod_eq_zero_iff, Nat.mod_eq_of_lt (by omega)]

/-! ### The generated frequency (40_lcg_frequency.md R83) -/

/-- An LCG value is below RANGE_WIDTH, so the range map only adds F_LO. -/
theorem rangeMap_lcgStep_toNat (x : Word) : (rangeMap (lcgStep x)).toNat = 300000000 + (lcgStep x).toNat := by
  have := lcgStep_le x
  rw [rangeMap_toNat, Nat.mod_eq_of_lt (by omega)]

/-- A frequency below 2^32 stands in FREQ_LO. -/
theorem freqLow_toNat_of_lt {f : DWord} (h : f.toNat < 4294967296) : (freqLow f).toNat = f.toNat := by
  simp only [freqLow, BitVec.extractLsb'_toNat, Nat.shiftRight_zero]
  exact Nat.mod_eq_of_lt h

/-- A frequency below 2^32 leaves FREQ_HI zero. -/
theorem freqHigh_eq_zero_of_lt {f : DWord} (h : f.toNat < 4294967296) : freqHigh f = 0#32 := by
  apply BitVec.eq_of_toNat_eq
  simp only [freqHigh, BitVec.extractLsb'_toNat, Nat.shiftRight_eq_div_pow, BitVec.toNat_ofNat]
  omega

/-! ### Which events step the LCG (40_lcg_frequency.md R84) -/

/-- A word on a port takes an LCG step when it decodes to one of the two commands that step the LCG. -/
theorem takesLcgStep_command_iff {p : Port} {w : Word} :
    takesLcgStep (.access (.write .word (portOffset p) w)) = true ↔
      decode p w = .ok .lcgnext ∨ decode p w = .ok .frqnext := by
  rw [decode_eq_ok_iff, decode_eq_ok_iff, encode_lcgnext, encode_frqnext]
  cases p <;> simp [takesLcgStep, portOffset, regOffset, Instr.port]

theorem raise_lcg (e : BlockError) (s : State) : (raise e s).lcg = s.lcg := by
  obtain ⟨_, _, _, _, _, _, he⟩ := raise_frame e s
  rw [he]

/-- Of the commands LCGNEXT and FRQNEXT step LCG, and no other writes it. -/
theorem CommandEffect.lcg {i : Instr} {s t : State} (h : CommandEffect s i t) :
    t.lcg = if i = .lcgnext ∨ i = .frqnext then lcgStep s.lcg else s.lcg := by
  cases h with
  | lcgnext | frqnext | tprogPair _ | stsig _ | spstart => rfl
  | tprogFail _ | sppushFull _ => exact raise_lcg _ s
  | sppushRoom _ => simp

/-- A word on a command register, legal or not, steps LCG exactly when it is counted as a step. -/
theorem runCommand_lcg {p : Port} {w : Word} {s t : State} (h : runCommand p w s = .next t) :
    t.lcg = if takesLcgStep (.access (.write .word (portOffset p) w)) then lcgStep s.lcg else s.lcg := by
  simp only [takesLcgStep_command_iff]
  rcases runCommand_cases p w s with ⟨i, hd, hr⟩ | ⟨e, hd, hr⟩
  · rw [hr] at h
    simpa [hd] using (exec_effect h).lcg
  · rw [hr] at h
    cases h
    simpa [hd] using raise_lcg _ s

/-- An admitted access steps LCG exactly when it is counted as a step; reads and operand writes are not. -/
theorem perform_lcg {line : Bool} {a : Access} {act : BusAction} {s t : State} (ha : admission line a = .ok act)
    (h : perform act s = .next t) : t.lcg = if takesLcgStep (.access a) then lcgStep s.lcg else s.lcg := by
  obtain ⟨-, hact⟩ := admit_ok ha
  rcases hact with ⟨off, r, rfl, -, -, -, rfl⟩ | ⟨off, j, rfl, -, rfl⟩ | ⟨off, v, rfl, hr, rfl⟩ |
    ⟨off, v, rfl, hr, rfl⟩ | ⟨off, v, rfl, hr, rfl⟩ | ⟨off, v, rfl, hr, rfl⟩ | ⟨off, v, rfl, hr, rfl⟩
  · cases h; rfl
  · cases h; rfl
  all_goals obtain rfl := eq_regOffset_of_regionAt hr
  · cases h; rfl
  · cases h; rfl
  · cases h; rfl
  · exact runCommand_lcg (p := .hopCmd) (s := s.setResponse .done) h
  · exact runCommand_lcg (p := .sprCmd) (s := s.setResponse .done) h

/-- A step that takes an access steps LCG exactly when the access is counted as a step. -/
theorem step_access_lcg {s t : State} {a : Access} {rest : List HostEvent} (hp : s.pending = .access a :: rest)
    (h : step s = .next t) : t.lcg = if takesLcgStep (.access a) then lcgStep s.lcg else s.lcg := by
  cases ha : admission s.resetLine a with
  | error c => rw [step_not_admitted hp ha] at h; cases h
  | ok act => rw [step_admitted hp ha] at h; exact perform_lcg (s := s.setPending rest) ha h

/-- Along a run of accesses LCG is stepped once for each access counted, and not by idling. -/
theorem run_lcg {k : Nat} {s t : State} (ha : AccessesOnly (s.pending.take k)) (h : run k s = .next t) :
    t.lcg = lcgStep^[(s.pending.take k).countP takesLcgStep] s.lcg := by
  induction k generalizing s with
  | zero => cases h; rfl
  | succ k ih =>
    obtain ⟨u, hstep, hrun⟩ := run_succ_next h
    have hu := stepTakesOneEventInOrder s u hstep
    cases hp : s.pending with
    | nil =>
      rw [step_idle hp] at hstep
      cases hstep
      simpa [hp, AccessesOnly] using ih (by simp [hp, AccessesOnly]) hrun
    | cons e rest =>
      rw [hp, List.tail_cons] at hu
      rw [hp, List.take_succ_cons] at ha
      obtain ⟨⟨a, rfl⟩, hrest⟩ := List.forall_mem_cons.1 ha
      have hlcg := step_access_lcg hp hstep
      rw [ih (by rwa [hu]) hrun, hu, hlcg, List.take_succ_cons, List.countP_cons]
      split_ifs <;> rfl

/-- Asserting reset and then releasing it leaves the reset state, with the input released. -/
theorem driveReset_release_assert (s : State) (es : List HostEvent) :
    driveReset false ((driveReset true s).setPending es) = ((applyReset s).setPending es).setResetLine false := rfl

/-- A run that first takes an assertion and a release of reset goes on from the reset state. -/
theorem run_assert_release {s : State} {k : Nat} {es : List HostEvent}
    (hp : s.pending = .drive true :: .drive false :: es) :
    run (k + 2) s = run k (((applyReset s).setPending es).setResetLine false) := by
  have hp' : (driveReset true (s.setPending (.drive false :: es))).pending = .drive false :: es := rfl
  rw [run_succ (step_drive hp), run_succ (step_drive hp'), driveReset_release_assert]
  rfl

end Sys2Proof.Machine
end

section
/-! The statements on the LCG and the frequency (40_lcg_frequency.md), from the facts above. -/

namespace Sys2Proof.Machine

/-- Settles O13: FREQ is F_LO plus a value below LCG_M (`rangeMap_lcgStep_toNat`), so it fits FREQ_LO. -/
theorem generatedFrequencyStaysInTheBand : Obligations.GeneratedFrequencyStaysInTheBand := by
  intro s t h
  rw [exec_frqnext] at h
  cases h
  have hfreq := rangeMap_lcgStep_toNat s.lcg
  have hle := lcgStep_le s.lcg
  have hzero := lcgStep_toNat_eq_zero_iff s.lcg
  have hfits : (rangeMap (lcgStep s.lcg)).toNat < 4294967296 := by omega
  simp only [State.setHopCode_freq, State.setHopCode_lcg, State.setFreq_freq, State.setFreq_lcg, State.setLcg_lcg]
  exact ⟨hfreq, by omega, by omega, by omega, by omega, freqHigh_eq_zero_of_lt hfits, freqLow_toNat_of_lt hfits⟩

/-- Settles O14: the steps before the last keep whether the value is a multiple of LCG_M, and the last gives 0 exactly
from a multiple. -/
theorem onlyDegenerateSeedsReachZero : Obligations.OnlyDegenerateSeedsReachZero := by
  intro x n
  have hle := lcgStep_le (lcgStep^[n] x)
  have hzero := (lcgStep_toNat_eq_zero_iff (lcgStep^[n] x)).trans (iterate_lcgStep_mod_eq_zero_iff n x)
  rw [Function.iterate_succ_apply']
  exact ⟨fun h => ⟨Nat.one_le_iff_ne_zero.2 (mt hzero.1 h), hle⟩, fun h => BitVec.eq_of_toNat_eq (hzero.2 h),
    mod_lcgM_eq_zero_iff x⟩

/-- Settles O15: `run_lcg`, from any state and from the one a reset leaves, where LCG is SEED. -/
theorem lcgIsSeedAndStepCountOnly : Obligations.LcgIsSeedAndStepCountOnly := by
  refine ⟨fun k s t => run_lcg, fun s t es rest hes hp h => ?_⟩
  rw [run_assert_release hp] at h
  have htake : (es ++ rest).take es.length = es := List.take_left
  simpa [htake] using run_lcg (by simpa [htake] using hes) h

/-- Settles O11: LCG takes the value of one LCG step, and no other field but the code is written. -/
theorem lcgnextStepsTheGenerator : Obligations.LcgnextStepsTheGenerator := by
  refine ⟨decode_encode_port .lcgnext, fun s => ?_⟩
  have hle := lcgStep_le s.lcg
  have bit31 : (lcgStep s.lcg).getLsbD 31 = false := getLsbD_of_toNat_lt (b := 31) (by omega) le_rfl
  have stepFrom {x y : Word} (hxy : lcgStep x = y) (hx : s.lcg = x) : lcgStep s.lcg = y := by rw [hx, hxy]
  exact ⟨_, exec_lcgnext s, lcgStep_toNat s.lcg, rfl, bit31, rfl, fun _ => rfl, stepFrom rfl,
    fun h => h.elim (stepFrom rfl) (stepFrom rfl), fun h => h.elim (stepFrom rfl) (stepFrom rfl), stepFrom rfl,
    stepFrom rfl⟩

/-- Settles O12: FRQNEXT leaves LCG as LCGNEXT does, FREQ as the range map of it, and no other field but the code is
written. -/
theorem frqnextWritesTheMappedFrequency : Obligations.FrqnextWritesTheMappedFrequency := by
  refine ⟨decode_encode_port .frqnext, fun s => ⟨_, _, exec_frqnext s, exec_lcgnext s, rfl, lcgStep_toNat s.lcg,
    rangeMap_toNat _, rfl, fun _ => rfl, ?_⟩⟩
  simp only [State.setHopCode_freq, State.setHopCode_lcg, State.setFreq_freq, State.setFreq_lcg, State.setLcg_lcg]
  exact ⟨fun h => by rw [h]; rfl, fun h => by rw [h]; rfl, fun h => by rw [h]; rfl⟩

end Sys2Proof.Machine
end

section
/-! SUPPORT. The timer: which frequencies are achievable, the laws of PeriodMap and what TPROG leaves of them
(41_timer_period.md). -/

namespace Sys2Proof.Machine

/-! ### Achievable frequencies (41_timer_period.md R91, R94(b)) -/

/-- A frequency the timer can be programmed to: neither 0 nor above F_CLK, and its ticks fit divider and period
(41_timer_period.md R94(b)). -/
def Achievable (p : Params) (f : Nat) : Prop :=
  1 ≤ f ∧ f ≤ p.fClk ∧ p.fClk / f ≤ 2 ^ (p.pscBits + p.arrBits)

/-- The divider of R91 fits its register exactly when the ticks fit both registers together. -/
theorem divider_lt_iff {ticks : Nat} (h : ticks ≠ 0) (pscBits arrBits : Nat) :
    (ticks - 1) / 2 ^ arrBits < 2 ^ pscBits ↔ ticks ≤ 2 ^ (pscBits + arrBits) := by
  rw [Nat.div_lt_iff_lt_mul (Nat.two_pow_pos _), ← pow_add]
  omega

/-- PeriodMap gives its pair for an achievable frequency. -/
theorem periodMap_of_achievable {p : Params} {f : Nat} (h : Achievable p f) :
    periodMap p f = .pair ((p.fClk / f - 1) / 2 ^ p.arrBits)
      (p.fClk / f / ((p.fClk / f - 1) / 2 ^ p.arrBits + 1) - 1) := by
  obtain ⟨hpos, hle, hfit⟩ := h
  have hticks : 0 < p.fClk / f := Nat.div_pos hle hpos
  have hpsc := (divider_lt_iff hticks.ne' p.pscBits p.arrBits).2 hfit
  rcases periodMap_cases p f with ⟨h0, -⟩ | ⟨-, h0, -⟩ | ⟨-, -, hbig, -⟩ | ⟨-, -, -, hpair⟩
  · omega
  · omega
  · omega
  · exact hpair

/-- PeriodMap gives a pair for no other frequency. -/
theorem achievable_of_periodMap_pair {p : Params} {f psc arr : Nat} (h : periodMap p f = .pair psc arr) :
    Achievable p f := by
  obtain ⟨hpos, hticks, rfl, hpsc, -⟩ := periodMap_pair h
  exact ⟨hpos, (Nat.one_le_div_iff hpos).1 hticks, (divider_lt_iff (by omega) _ _).1 hpsc⟩

theorem periodMap_zero (p : Params) : periodMap p 0 = .unachievable .unachLow := rfl

/-- A frequency above F_CLK is too high. -/
theorem periodMap_of_fClk_lt {p : Params} {f : Nat} (h : p.fClk < f) : periodMap p f = .unachievable .unachHigh := by
  have hticks : p.fClk / f = 0 := Nat.div_eq_of_lt h
  rcases periodMap_cases p f with ⟨h0, -⟩ | ⟨-, -, hhigh⟩ | ⟨-, h0, -⟩ | ⟨-, h0, -⟩
  · omega
  · exact hhigh
  · exact absurd hticks h0
  · exact absurd hticks h0

/-- A frequency whose ticks do not fit the timer is too low. -/
theorem periodMap_of_lt_ticks {p : Params} {f : Nat} (h : 2 ^ (p.pscBits + p.arrBits) < p.fClk / f) :
    periodMap p f = .unachievable .unachLow := by
  rcases periodMap_cases p f with ⟨-, hlow⟩ | ⟨-, h0, -⟩ | ⟨-, -, -, hlow⟩ | ⟨-, h0, hpsc, -⟩
  · exact hlow
  · exact absurd (h0 ▸ h) (Nat.not_lt_zero _)
  · exact hlow
  · exact absurd ((divider_lt_iff h0 _ _).1 hpsc) (by omega)

/-- PeriodMap reads F_CLK, PSC_BITS and ARR_BITS of the parameters, not SEED (41_timer_period.md R94(e)). -/
theorem periodMap_congr {p q : Params} (hclk : q.fClk = p.fClk) (hpsc : q.pscBits = p.pscBits)
    (harr : q.arrBits = p.arrBits) (f : Nat) : periodMap q f = periodMap p f := by
  simp only [periodMap, hclk, hpsc, harr]

/-! ### The laws of a pair (41_timer_period.md R94) -/

section Pair

variable {p : Params} {f psc arr : Nat} (h : periodMap p f = .pair psc arr)
include h

/-- No smaller divider lets the period fit (R94(a)). -/
theorem periodMap_pair_least {q : Nat} (hq : p.fClk / f ≤ (q + 1) * 2 ^ p.arrBits) : psc ≤ q := by
  obtain ⟨-, hticks, rfl, -⟩ := periodMap_pair h
  have hlt : (p.fClk / f - 1) / 2 ^ p.arrBits < q + 1 := (Nat.div_lt_iff_lt_mul (Nat.two_pow_pos _)).2 (by omega)
  omega

/-- The period register holds one less than the whole periods of the divided clock. -/
theorem periodMap_pair_period : arr + 1 = p.fClk / f / (psc + 1) := by
  obtain ⟨-, -, -, -, harr, hpos, -⟩ := periodMap_pair h
  omega

/-- The emitted period is never longer than the ticks asked for (R94(c)). -/
theorem periodMap_pair_mul_le : (psc + 1) * (arr + 1) ≤ p.fClk / f := by
  rw [periodMap_pair_period h]
  exact Nat.mul_div_le _ _

/-- The emitted frequency is never below the request (R94(c)). -/
theorem le_fOut_of_pair : (f : ℚ) ≤ fOut p.fClk psc arr := by
  have hle : f * ((psc + 1) * (arr + 1)) ≤ p.fClk :=
    (Nat.mul_le_mul_left f (periodMap_pair_mul_le h)).trans (Nat.mul_div_le _ _)
  rw [fOut, le_div_iff₀ (by positivity)]
  exact_mod_cast hle

/-- The emitted frequency is the request exactly when neither division leaves a remainder (R94(c)). -/
theorem fOut_eq_iff_of_pair : fOut p.fClk psc arr = f ↔ f ∣ p.fClk ∧ psc + 1 ∣ p.fClk / f := by
  obtain ⟨hpos, -⟩ := periodMap_pair h
  have exact_iff : fOut p.fClk psc arr = f ↔ p.fClk = f * ((psc + 1) * (p.fClk / f / (psc + 1))) := by
    rw [← periodMap_pair_period h, fOut, div_eq_iff (by positivity)]
    exact_mod_cast Iff.rfl
  rw [exact_iff]
  constructor
  · intro heq
    exact ⟨⟨_, heq⟩, ⟨_, Nat.div_eq_of_eq_mul_right hpos heq⟩⟩
  · rintro ⟨hf, hpsc⟩
    rw [Nat.mul_div_cancel' hpsc, Nat.mul_div_cancel' hf]

end Pair

/-- Above half of F_CLK there is one tick only, and the pair is (0, 0) (R94(d)). -/
theorem periodMap_top {p : Params} {f : Nat} (hhalf : p.fClk < 2 * f) (hle : f ≤ p.fClk) :
    periodMap p f = .pair 0 0 := by
  have hticks : p.fClk / f = 1 := Nat.div_eq_of_lt_le (by omega) (by omega)
  have hach : Achievable p f := ⟨by omega, hle, hticks ▸ Nat.one_le_two_pow⟩
  simpa [hticks] using periodMap_of_achievable hach

theorem fOut_zero_zero (fClk : Nat) : fOut fClk 0 0 = fClk := by
  simp [fOut]

/-! ### What TPROG leaves (41_timer_period.md R91) -/

/-- The timer registers hold the pair of PeriodMap as it is. -/
theorem periodMap_pair_toNat {p : Params} {f psc arr : Nat} (hp : p.wf = true) (h : periodMap p f = .pair psc arr) :
    (BitVec.ofNat 32 psc).toNat = psc ∧ (BitVec.ofNat 32 arr).toNat = arr := by
  obtain ⟨hpsc, harr⟩ := periodMap_pair_fits h
  obtain ⟨-, -, -, hpb, -, hab⟩ := (params_wf_iff p).1 hp
  exact ⟨toNat_ofNat_of_fits hpsc hpb, toNat_ofNat_of_fits harr hab⟩

/-- A failing PeriodMap leaves its error's code, which is not OK. -/
theorem raise_hopCode_of_periodMap {p : Params} {f : Nat} {e : BlockError} (h : periodMap p f = .unachievable e)
    (s : State) : (raise e s).hopCode = e.code ∧ e.code ≠ .ok := by
  rcases periodMap_error h with rfl | rfl <;> exact ⟨rfl, by decide⟩

section Tprog

variable {s t : State} (h : exec .tprog s = .next t)
include h

/-- TPROG ends with OK only where PeriodMap gives a pair, which the timer registers then hold. -/
theorem tprog_pair_of_ok (hp : s.params.wf = true) (hok : t.hopCode = .ok) :
    periodMap s.params s.freq.toNat = .pair t.timPsc.toNat t.timArr.toNat := by
  cases exec_effect h with
  | tprogPair hm =>
    obtain ⟨epsc, earr⟩ := periodMap_pair_toNat hp hm
    simpa only [State.setHopCode_timPsc, State.setHopCode_timArr, State.setTimer_timPsc, State.setTimer_timArr, epsc,
      earr] using hm
  | tprogFail hm =>
    obtain ⟨hcode, hne⟩ := raise_hopCode_of_periodMap hm s
    exact absurd (hcode.symm.trans hok) hne

/-- TPROG ends with OK exactly for an achievable frequency (41_timer_period.md R94(b)). -/
theorem tprog_ok_iff (hp : s.params.wf = true) : t.hopCode = .ok ↔ Achievable s.params s.freq.toNat := by
  constructor
  · exact fun hok => achievable_of_periodMap_pair (tprog_pair_of_ok h hp hok)
  · intro hach
    rw [exec_tprog_pair (periodMap_of_achievable hach)] at h
    cases h
    rfl

/-- The code and the pair TPROG leaves depend on the answer of PeriodMap alone. -/
theorem tprog_result_congr {s' t' : State} (h' : exec .tprog s' = .next t')
    (hm : periodMap s'.params s'.freq.toNat = periodMap s.params s.freq.toNat) :
    t'.hopCode = t.hopCode ∧ (t.hopCode = .ok → t'.timPsc = t.timPsc ∧ t'.timArr = t.timArr) := by
  cases hs : periodMap s.params s.freq.toNat with
  | pair psc arr =>
    rw [exec_tprog_pair hs] at h
    rw [exec_tprog_pair (hm.trans hs)] at h'
    cases h
    cases h'
    exact ⟨rfl, fun _ => ⟨rfl, rfl⟩⟩
  | unachievable e =>
    rw [exec_tprog_fail hs] at h
    rw [exec_tprog_fail (hm.trans hs)] at h'
    cases h
    cases h'
    obtain ⟨hcode, hne⟩ := raise_hopCode_of_periodMap hs s
    obtain ⟨hcode', -⟩ := raise_hopCode_of_periodMap hs s'
    exact ⟨hcode'.trans hcode.symm, fun hok => absurd (hcode.symm.trans hok) hne⟩

end Tprog

/-! ### The output stage (41_timer_period.md R92) -/

theorem raise_outEn (e : BlockError) (s : State) : (raise e s).outEn = s.outEn := by
  obtain ⟨_, _, _, _, _, _, he⟩ := raise_frame e s
  rw [he]

/-- No command disables the output stage. -/
theorem CommandEffect.outEn {i : Instr} {s t : State} (h : CommandEffect s i t) (ho : s.outEn = true) :
    t.outEn = true := by
  cases h with
  | lcgnext | frqnext | stsig _ | spstart => exact ho
  | tprogPair _ => rfl
  | tprogFail _ | sppushFull _ => exact (raise_outEn _ s).trans ho
  | sppushRoom _ => simpa using ho

end Sys2Proof.Machine
end

section
/-! The statements on the timer and the status signal (41_timer_period.md), from the facts above. -/

namespace Sys2Proof.Machine

/-- Settles O16: PeriodMap gives the pair of the formula, and the registers hold it. -/
theorem tprogProgramsAnAchievableFrequency : Obligations.TprogProgramsAnAchievableFrequency := by
  intro s hp hpos hle hfit
  have hm := periodMap_of_achievable (p := s.params) ⟨hpos, hle, hfit⟩
  obtain ⟨epsc, earr⟩ := periodMap_pair_toNat hp hm
  refine ⟨_, exec_tprog_pair hm, epsc, ?_, rfl, fun _ => rfl⟩
  simp only [State.setHopCode_timPsc, State.setHopCode_timArr, State.setTimer_timPsc, State.setTimer_timArr, epsc, earr]

/-- Settles O17: each of the three ways PeriodMap fails, and what raising its error writes. -/
theorem tprogFailsAndProgramsNothing : Obligations.TprogFailsAndProgramsNothing := by
  intro s
  refine ⟨fun h0 => ?_, fun hhigh => ?_, fun _ hbig => ?_⟩
  · exact exec_tprog_fail (h0 ▸ periodMap_zero s.params)
  · exact exec_tprog_fail (periodMap_of_fClk_lt hhigh)
  · exact exec_tprog_fail (periodMap_of_lt_ticks hbig)

/-- Settles O18: the laws of PeriodMap's pair, which a successful TPROG leaves in the registers. -/
theorem periodMapLaws : Obligations.PeriodMapLaws := by
  intro s t hp h
  refine ⟨tprog_ok_iff h hp, fun hok => ?_, fun hhalf hle => ?_, fun s' t' hclk hpsc harr hfreq h' => ?_⟩
  · have hm := tprog_pair_of_ok h hp hok
    obtain ⟨-, -, -, hfits, hperiod, hlo, hhi, hup⟩ := periodMap_pair hm
    exact ⟨hup, fun _ => periodMap_pair_least hm, hlo, hhi, by omega, hfits, periodMap_pair_mul_le hm,
      le_fOut_of_pair hm, fOut_eq_iff_of_pair hm⟩
  · rw [exec_tprog_pair (periodMap_top hhalf hle)] at h
    cases h
    exact ⟨rfl, rfl, fOut_zero_zero s.params.fClk⟩
  · exact tprog_result_congr h h' (hfreq ▸ periodMap_congr hclk hpsc harr _)

/-- Settles O19: only commands write OUT_EN outside reset, and none of them 0; reset writes 0. -/
theorem outputStageStaysEnabledUntilReset : Obligations.OutputStageStaysEnabledUntilReset := by
  refine ⟨fun s t h hreset ho => ?_, fun s rest hline hp => ⟨_, step_drive hp, ?_⟩⟩
  · cases step_effect h with
    | idle _ ht | read _ _ _ _ ht | writeFreq _ _ _ _ ht | writeSample _ _ _ _ ht => rw [ht]; exact ho
    | drive b rest hp _ => exact absurd ⟨b, rest, hp⟩ hreset
    | command p w rest _ ht =>
      rcases runCommand_effect ht with ⟨i, -, -, he⟩ | rfl
      · exact he.outEn ho
      · exact (raise_outEn _ _).trans ho
  · simp [driveReset, hline]

/-- Settles O20: the two fields STSIG writes, and bit 1 of HOP_STAT. -/
theorem stsigSetsTheStatusSignal : Obligations.StsigSetsTheStatusSignal :=
  ⟨decode_encode_port (.stsig false), decode_encode_port (.stsig true), fun imm s =>
    ⟨_, exec_stsig imm s, rfl, getLsbD_hopStatWord _ 1, fun _ => rfl⟩⟩

end Sys2Proof.Machine
end

section
/-! SUPPORT. The spreader: the product as the table of R105 has it, the frame of SPPUSH and of a complete frame, and what
any number of pushes lays down (42_pn_spreader.md). -/

namespace Sys2Proof.Machine

/-! ### The product (42_pn_spreader.md R105) -/

/-- A product is a NaN where the sample is a NaN, and where it is an infinity and the chip is 0. -/
theorem productIsNaN_iff (a : Word) (c : Bool) :
    productIsNaN a c = true ↔ floatExp a = 0xFF#8 ∧ (floatFrac a = 0#23 → c = false) := by
  by_cases he : floatExp a = 0xFF#8
  · by_cases ht : floatFrac a = 0#23 <;> simp [productIsNaN, classify, he, ht]
  · simp [productIsNaN, classify, he]

/-- `fmul32` obeys the table, whatever the draw of a NaN product is. -/
theorem isProduct_fmul32 (a : Word) (c : Bool) (d : BitVec 23) : IsProduct a c (fmul32 a c d) := by
  rcases fmul32_cases a c d with ⟨hnan, hm⟩ | ⟨hnan, rfl, hm⟩ | ⟨hnan, rfl, hm⟩ <;> rw [hm]
  · obtain ⟨he, hfrac⟩ := (productIsNaN_iff a c).1 hnan
    have hbits := quietNaN_bits d
    refine ⟨fun hc hno => ?_, fun _ hfinite => absurd he hfinite, fun _ _ _ => hbits, fun _ _ => hbits⟩
    have hinf : floatFrac a = 0#23 := by_contra fun ht => hno ⟨he, ht⟩
    rw [hfrac hinf] at hc
    cases hc
  · rw [← Bool.not_eq_true, productIsNaN_iff] at hnan
    exact ⟨fun _ _ => rfl, nofun, nofun, fun he ht => absurd ⟨he, fun h0 => absurd h0 ht⟩ hnan⟩
  · rw [← Bool.not_eq_true, productIsNaN_iff] at hnan
    exact ⟨nofun, fun _ _ => rfl, fun _ he _ => absurd ⟨he, fun _ => rfl⟩ hnan,
      fun he _ => absurd ⟨he, fun _ => rfl⟩ hnan⟩

/-- The next product is one of SAMPLE_IN and the chip at IDX (R102). -/
theorem State.isProduct_product (s : State) : IsProduct s.sampleIn (chipAt s.pn s.idx.val) s.product :=
  isProduct_fmul32 _ _ _

/-- Every product of +0.0 is +0.0: it is finite, and its sign is +. -/
theorem IsProduct.eq_zero {c : Bool} {m : Word} (h : IsProduct 0x00000000#32 c m) : m = 0x00000000#32 := by
  cases c with
  | true => exact h.byOne rfl (by decide)
  | false => exact h.byZero rfl (by decide)

/-! ### What a push and a complete frame leave of the buffer (R103, R109) -/

/-- `appendSample` as a record: the fields of R103. -/
theorem State.appendSample_eq (s : State) (m : Word) :
    s.appendSample m = { s with
      modOut := m, modbuf := Memory.storeSample s.modbuf s.idx.val m, idx := s.idx + 1 } := rfl

/-- SPPUSH while a sample fits, as a record: the fields it writes and no other. -/
theorem exec_sppush_of_lt {s : State} (h : s.idx.val < 100) :
    exec .sppush s = .next { s with
      modOut := s.product, modbuf := Memory.storeSample s.modbuf s.idx.val s.product, idx := s.idx + 1,
      sprCode := .ok, draws := s.drawsAfterPush } := by
  rw [exec_sppush_room h.ne, State.appendSample_eq]
  rfl

/-- A push at index `i` leaves every byte of MODBUF outside `4i` to `4i + 3`. -/
theorem CommandEffect.sppush_modByte_of_outside {s t : State} (h : CommandEffect s .sppush t)
    (hwf : Memory.wf s.modbuf = true) {a : Nat} (ha : a < 4 * s.idx.val ∨ 4 * s.idx.val + 4 ≤ a) :
    t.modByte a = s.modByte a := by
  cases h with
  | sppushFull _ => rfl
  | sppushRoom hi =>
    have hread := Memory.read_storeSample hwf (i := s.idx.val) (by have := s.idx.isLt; omega) s.product a
    rw [if_neg (by omega)] at hread
    exact hread

/-- The frame bytes are the sync byte and MODBUF. -/
theorem frameByte_of_modbuf_eq {s t : State} (h : t.modbuf = s.modbuf) (j : Nat) : t.frameByte j = s.frameByte j := by
  rw [State.frameByte, State.frameByte, State.modByte, State.modByte, h]

theorem frameByte_succ (s : State) (j : Nat) : s.frameByte (j + 1) = s.modByte j := rfl

theorem raise_modbuf_idx (e : BlockError) (s : State) : (raise e s).modbuf = s.modbuf ∧ (raise e s).idx = s.idx := by
  obtain ⟨_, _, _, _, _, _, he⟩ := raise_frame e s
  rw [he]
  exact ⟨rfl, rfl⟩

/-- While IDX is 100 no command writes MODBUF, and only SPSTART moves IDX. -/
theorem CommandEffect.modbuf_idx_of_full {i : Instr} {s t : State} (h : CommandEffect s i t) (hfull : s.idx.val = 100) :
    t.modbuf = s.modbuf ∧ (t.idx = s.idx ∨ i = .spstart) := by
  cases h with
  | lcgnext | frqnext | tprogPair _ | stsig _ => exact ⟨rfl, .inl rfl⟩
  | tprogFail _ | sppushFull _ => exact (raise_modbuf_idx _ s).imp_right .inl
  | spstart => exact ⟨rfl, .inr rfl⟩
  | sppushRoom hi => exact absurd hfull hi

/-! ### Pushes one after another (R102 to R104) -/

/-- `t` is `s` after pushes of `samples` that all fitted: the products lie in MODBUF from IDX on, the bytes below stay,
and what the pushes do not write is as before. -/
structure Pushed (s : State) (samples : List Word) (t : State) : Prop where
  idx : t.idx.val = s.idx.val + samples.length
  modbuf : Memory.wf t.modbuf = true
  below : ∀ j, j < 4 * s.idx.val → t.modByte j = s.modByte j
  sample : ∀ i (h : i < samples.length), ∃ m, IsProduct samples[i] (chipAt s.pn (s.idx.val + i)) m ∧
    ∀ k, k < 4 → t.modByte (4 * (s.idx.val + i) + k) = wordByte m k
  pn : t.pn = s.pn
  sprCode : s.sprCode = .ok → t.sprCode = .ok
  sprFIll : t.sprFIll = s.sprFIll
  sprFFull : t.sprFFull = s.sprFFull
  resetLine : t.resetLine = s.resetLine
  pending : t.pending = s.pending

theorem Pushed.nil {s : State} (hwf : Memory.wf s.modbuf = true) : Pushed s [] s :=
  ⟨rfl, hwf, fun _ _ => rfl, nofun, rfl, id, rfl, rfl, rfl, rfl⟩

/-- Pushes after a push: they start above its bytes. -/
theorem Pushed.cons {s u t : State} {x : Word} {xs : List Word} (h : Pushed s [x] u) (k : Pushed u xs t) :
    Pushed s (x :: xs) t := by
  have hidx : u.idx.val = s.idx.val + 1 := h.idx
  refine ⟨?_, k.modbuf, fun j hj => ?_, fun i hi => ?_, k.pn.trans h.pn, k.sprCode ∘ h.sprCode,
    k.sprFIll.trans h.sprFIll, k.sprFFull.trans h.sprFFull, k.resetLine.trans h.resetLine, k.pending.trans h.pending⟩
  · rw [k.idx, hidx, List.length_cons]
    omega
  · rw [k.below j (by omega), h.below j hj]
  · cases i with
    | zero =>
      obtain ⟨m, hm, hbytes⟩ := h.sample 0 Nat.zero_lt_one
      exact ⟨m, hm, fun b hb => (k.below _ (by omega)).trans (hbytes b hb)⟩
    | succ i =>
      obtain ⟨m, hm, hbytes⟩ := k.sample i (Nat.lt_of_succ_lt_succ hi)
      have hshift : u.idx.val + i = s.idx.val + (i + 1) := by omega
      rw [hshift, h.pn] at hm
      rw [hshift] at hbytes
      exact ⟨m, hm, hbytes⟩

/-- An SPPUSH while a sample fits is a push of SAMPLE_IN. -/
theorem pushed_of_sppush {s t : State} (h : exec .sppush s = .next t) (hwf : Memory.wf s.modbuf = true)
    (hi : s.idx.val < 100) : Pushed s [s.sampleIn] t := by
  have heffect := exec_effect h
  rw [exec_sppush_of_lt hi] at h
  cases h
  exact {
    idx := idx_succ_val hi.ne
    modbuf := Memory.wf_storeSample hwf hi _
    below := fun j hj => heffect.sppush_modByte_of_outside hwf (.inl hj)
    sample := fun
      | 0, _ => ⟨s.product, s.isProduct_product, fun _ hk => heffect.sppush_modByte hwf hi hk⟩
    pn := rfl
    sprCode := fun _ => rfl
    sprFIll := rfl
    sprFFull := rfl
    resetLine := rfl
    pending := rfl }

/-- With reset released, the two accesses of PUSH are an SPPUSH on the sample (30_encoding.md R70). -/
theorem issueAll_push {s : State} (x : Word) (h : s.resetLine = false) :
    issueAll (pushEvents x) s = exec .sppush ((s.setSampleIn x).setResponse .done) := by
  rw [pushEvents, issueAll_cons, issue_sample x h, andThen_next, issueAll_singleton]
  exact issue_command .sppush h

/-- A PUSH while a sample fits completes and is a push of its sample. -/
theorem exists_pushed_of_push {s : State} (x : Word) (hwf : Memory.wf s.modbuf = true) (hline : s.resetLine = false)
    (hi : s.idx.val < 100) : ∃ t, issueAll (pushEvents x) s = .next t ∧ Pushed s [x] t := by
  have hexec := exec_sppush_of_lt (s := (s.setSampleIn x).setResponse .done) hi
  exact ⟨_, (issueAll_push x hline).trans hexec, { pushed_of_sppush hexec hwf hi with }⟩

/-- As many pushes as fit complete and lay down their products, by induction on the samples. -/
theorem exists_pushed {s : State} {samples : List Word} (hwf : Memory.wf s.modbuf = true) (hline : s.resetLine = false)
    (hfit : s.idx.val + samples.length ≤ 100) :
    ∃ t, issueAll (samples.flatMap pushEvents) s = .next t ∧ Pushed s samples t := by
  induction samples generalizing s with
  | nil => exact ⟨s, rfl, .nil hwf⟩
  | cons x xs ih =>
    rw [List.length_cons] at hfit
    obtain ⟨u, hu, hpush⟩ := exists_pushed_of_push x hwf hline (by omega)
    have hidx : u.idx.val = s.idx.val + 1 := hpush.idx
    obtain ⟨t, ht, hpushes⟩ := ih hpush.modbuf (hpush.resetLine.trans hline) (by omega)
    exact ⟨t, by rw [List.flatMap_cons, issueAll_append, hu, andThen_next, ht], hpush.cons hpushes⟩

/-! ### SPREAD100 (30_encoding.md R70) -/

theorem length_stmtEvents_spread100 (samples : List Word) :
    (stmtEvents (.spread100 samples)).length = 2 * samples.length + 1 := by
  have hpush : (fun x => (pushEvents x).length) = fun _ => 2 := rfl
  rw [stmtEvents, List.length_cons, List.length_flatMap, hpush, List.map_const', List.sum_replicate, smul_eq_mul,
    Nat.mul_comm]

/-- SPREAD100 completes and lays down the products from index 0 on: SPSTART leaves IDX = 0 and the code OK, and 100
samples fit. -/
theorem issueAll_spread100 {s : State} {samples : List Word} (hwf : Memory.wf s.modbuf = true)
    (hline : s.resetLine = false) (hlen : samples.length ≤ 100) :
    ∃ t, issueAll (stmtEvents (.spread100 samples)) s = .next t ∧ Pushed ((s.setIdx 0).setSprCode .ok) samples t := by
  have hstart : issue (commandEvent .spstart) s = .next (((s.setResponse .done).setIdx 0).setSprCode .ok) :=
    issue_command .spstart hline
  obtain ⟨t, ht, hpushed⟩ := exists_pushed (s := ((s.setResponse .done).setIdx 0).setSprCode .ok) (samples := samples)
    hwf hline ((Nat.zero_add _).trans_le hlen)
  exact ⟨t, by rw [stmtEvents, issueAll_cons, hstart, andThen_next, ht], { hpushed with }⟩

/-- The run over the 201 accesses of SPREAD100. -/
theorem run_spread100 {s : State} {samples : List Word} {rest : List HostEvent} (hwf : Memory.wf s.modbuf = true)
    (hline : s.resetLine = false) (hlen : samples.length = 100)
    (hp : s.pending = stmtEvents (.spread100 samples) ++ rest) :
    ∃ t, run 201 s = .next t ∧ Pushed (((s.setPending rest).setIdx 0).setSprCode .ok) samples t := by
  obtain ⟨t, ht, hpushed⟩ := issueAll_spread100 (s := s.setPending rest) hwf hline hlen.le
  have hrun := run_eq_issueAll_of_pending hp
  rw [length_stmtEvents_spread100, hlen] at hrun
  exact ⟨t, hrun.trans ht, hpushed⟩

section FromZero

variable {s t : State} {samples : List Word} (h : Pushed s samples t) (h0 : s.idx = 0)
include h h0

/-- 100 pushes from index 0 complete the frame. -/
theorem Pushed.idx_eq_of_idx_zero (hlen : samples.length = 100) : t.idx.val = 100 := by
  rw [h.idx, hlen, h0]
  rfl

/-- Pushes from index 0 lay down sample `i` at `4i`. -/
theorem Pushed.sample_of_idx_zero {i : Nat} (hi : i < samples.length) :
    ∃ m, IsProduct samples[i] (chipAt s.pn i) m ∧ ∀ k, k < 4 → t.modByte (4 * i + k) = wordByte m k := by
  have hsample := h.sample i hi
  rwa [h0, Fin.val_zero, Nat.zero_add] at hsample

/-- 100 pushes of +0.0 from index 0 leave no byte of MODBUF other than 0x00 (R108(a)). -/
theorem Pushed.modByte_of_zeros (hzeros : samples = List.replicate 100 0x00000000#32) (j : Nat) :
    t.modByte j = 0x00#8 := by
  by_cases hj : j < 400
  · subst hzeros
    obtain ⟨m, hm, hbytes⟩ := h.sample_of_idx_zero h0 (i := j / 4) (by rw [List.length_replicate]; omega)
    rw [List.getElem_replicate] at hm
    have hbyte := hbytes (j % 4) (by omega)
    rw [Nat.div_add_mod, hm.eq_zero, wordByte, BitVec.extractLsb'_zero] at hbyte
    exact hbyte
  · exact Memory.read_above h.modbuf (by omega)

end FromZero

end Sys2Proof.Machine
end

section
/-! The statements on the spreader (42_pn_spreader.md), from the facts above. -/

namespace Sys2Proof.Machine

/-- Settles O24: the bytes of the product (`CommandEffect.sppush_modByte`), the bytes outside, and the record of
`exec_sppush_of_lt`. -/
theorem sppushAppendsTheProduct : Obligations.SppushAppendsTheProduct := by
  intro s hwf hi
  have hexec := exec_sppush_of_lt hi
  have heffect := exec_effect hexec
  exact ⟨_, hexec, rfl, idx_succ_val hi.ne, rfl, fun _ hk => heffect.sppush_modByte hwf hi hk,
    fun _ ha => heffect.sppush_modByte_of_outside hwf ha, rfl⟩

/-- Settles O25: `fmul32` obeys the table, and MOD_OUT is the `fmul32` of SAMPLE_IN and the chip at IDX. -/
theorem sppushProductFollowsTheTable : Obligations.SppushProductFollowsTheTable := by
  refine ⟨⟨rfl, rfl⟩, isProduct_fmul32, fun s t hi h => ?_⟩
  rw [exec_sppush_of_lt hi] at h
  cases h
  exact s.isProduct_product

/-- Settles O29: only commands reach MODBUF or IDX outside reset, and on a full frame only SPSTART moves IDX, by its own
word. -/
theorem completeFrameIsStable : Obligations.CompleteFrameIsStable := by
  intro s t hfull h hreset
  cases step_effect h with
  | idle _ ht | read _ _ _ _ ht | writeFreq _ _ _ _ ht | writeSample _ _ _ _ ht =>
    rw [ht]
    exact ⟨fun _ => rfl, .inl hfull⟩
  | drive b rest hp _ => exact absurd ⟨b, rest, hp⟩ hreset
  | command p w rest hp ht =>
    rcases runCommand_effect ht with ⟨i, rfl, rfl, he⟩ | rfl
    · obtain ⟨hmodbuf, hidx⟩ := he.modbuf_idx_of_full hfull
      refine ⟨frameByte_of_modbuf_eq hmodbuf, ?_⟩
      rcases hidx with hidx | rfl
      · exact .inl (hidx ▸ hfull)
      · exact .inr ⟨rest, hp⟩
    · obtain ⟨hmodbuf, hidx⟩ := raise_modbuf_idx (.illegal p.unit) ((s.setPending rest).setResponse .done)
      exact ⟨frameByte_of_modbuf_eq hmodbuf, .inl (hidx ▸ hfull)⟩

/-- Settles O30: SPSTART and 100 pushes that all fit (`run_spread100`), read through the frame. -/
theorem spread100LaysDownTheWholeFrame : Obligations.Spread100LaysDownTheWholeFrame := by
  intro s samples rest hwf hline hlen hp
  obtain ⟨t, hrun, hpushed⟩ := run_spread100 hwf hline hlen hp
  have hidx := hpushed.idx_eq_of_idx_zero rfl hlen
  refine ⟨t, hrun, hpushed.pending, hidx, hpushed.sprCode rfl, decide_eq_true hidx, hpushed.sprFIll, hpushed.sprFFull,
    rfl, fun i hi => ?_⟩
  obtain ⟨m, hm, hbytes⟩ := hpushed.sample_of_idx_zero rfl hi
  refine ⟨m, hm, fun k hk => ?_⟩
  rw [Nat.add_assoc, Nat.add_comm 1, frameByte_succ]
  exact hbytes k hk

/-- Settles O31: every product of +0.0 is +0.0, and a canonical buffer that reads 0x00 everywhere is empty. -/
theorem allZeroSignalGivesAZeroPayload : Obligations.AllZeroSignalGivesAZeroPayload := by
  intro s rest hwf hline hp
  obtain ⟨t, hrun, hpushed⟩ := run_spread100 hwf hline List.length_replicate hp
  have hzero := hpushed.modByte_of_zeros rfl rfl
  refine ⟨t, hrun, decide_eq_true (hpushed.idx_eq_of_idx_zero rfl List.length_replicate),
    Memory.eq_nil_of_read_zero hpushed.modbuf hzero, fun j hj _ => ?_⟩
  obtain ⟨j, rfl⟩ := Nat.exists_eq_add_of_le' hj
  exact hzero j

/-- Settles O23: the two fields SPSTART writes, and bit 0 of SPR_STAT. -/
theorem spstartReturnsTheIndexToZero : Obligations.SpstartReturnsTheIndexToZero :=
  ⟨decode_encode_port .spstart, fun s =>
    ⟨_, exec_spstart s, rfl, getLsbD_sprStatWord _ 0, rfl, fun _ => rfl, fun _ => rfl⟩⟩

/-- Settles O26: what raising E_FULL writes. -/
theorem sppushOnAFullFrameFails : Obligations.SppushOnAFullFrameFails :=
  fun _ hfull => exec_sppush_full hfull

/-- Settles O27: a push that fits writes the code OK and no flag, whatever its sample is. -/
theorem multiplySignalsNothing : Obligations.MultiplySignalsNothing :=
  fun _ hi _ => ⟨_, exec_sppush_of_lt hi, rfl, rfl, rfl, rfl, rfl, rfl⟩

end Sys2Proof.Machine
end

section
/-! SUPPORT. The host's sequences (43_host_sequences.md): single statements on the block, the hop cycle, the state
machine of a transmission and the record of its failures, and the classes of failures. -/

namespace Sys2Proof.Machine

/-! ### Single statements on the block, with reset released -/

/-- No command reads or writes the bus answer. -/
theorem exec_setResponse {i : Instr} {s t : State} (h : exec i s = .next t) (r : Response) :
    exec i (s.setResponse r) = .next (t.setResponse r) := by
  cases exec_effect h with
  | lcgnext | frqnext | stsig _ | spstart => rfl
  | tprogPair hm => exact exec_tprog_pair hm
  | tprogFail hm =>
    have hfail := exec_tprog_fail (s := s.setResponse r) hm
    rcases periodMap_error hm with rfl | rfl <;> exact hfail
  | sppushFull hi => exact exec_sppush_full hi
  | sppushRoom hi => exact exec_sppush_room hi

theorem runStmts_cons (a : HostStmt) (as : List HostStmt) (s : State) :
    runStmts (a :: as) s = andThen (runStmts [a] s) (runStmts as) :=
  runStmts_append [a] as s

@[simp] theorem State.setResponse_setResponse (s : State) (q r : Response) :
    (s.setResponse q).setResponse r = s.setResponse r := rfl

theorem readReg_setResponse (r : Reg) (s : State) (q : Response) : readReg r (s.setResponse q) = readReg r s := by
  cases r <;> rfl

/-- A command statement, whatever the last answer was, leaves what its command leaves, and the access answered. -/
theorem runStmts_command {i : Instr} {s t : State} (q : Response) (hline : s.resetLine = false)
    (h : exec i s = .next t) : runStmts [.command i] (s.setResponse q) = .next (t.setResponse .done) :=
  calc runStmts [.command i] (s.setResponse q) = issue (commandEvent i) (s.setResponse q) := issueAll_singleton _ _
    _ = exec i (s.setResponse .done) := issue_command i hline
    _ = .next (t.setResponse .done) := exec_setResponse h .done

/-- RD of a readable register, whatever the last answer was, changes nothing but the answer. -/
theorem runStmts_rd {s : State} {r : Reg} (q : Response) (hline : s.resetLine = false) (h1 : r ≠ .hopCmd)
    (h2 : r ≠ .sprCmd) : runStmts [.rd r] (s.setResponse q) = .next (s.setResponse (.word (readReg r s))) :=
  calc runStmts [.rd r] (s.setResponse q) = issue (rdEvent r) (s.setResponse q) := issueAll_singleton _ _
    _ = .next (s.setResponse (.word (readReg r (s.setResponse q)))) := issue_rd hline h1 h2
    _ = .next (s.setResponse (.word (readReg r s))) := by rw [readReg_setResponse]

/-! ### The hop cycle (43_host_sequences.md R121, R122) -/

/-- The two halves of FREQ, read one after the other, are FREQ. -/
theorem freqHigh_append_freqLow (f : DWord) : freqHigh f ++ freqLow f = f := by
  refine freq_ext ?_ ?_
  · exact BitVec.extractLsb'_append_eq_right
  · exact BitVec.extractLsb'_append_eq_left

/-- Different codes have different bytes. -/
theorem ResultCode.bits_inj {c d : ResultCode} : c.bits = d.bits ↔ c = d := by
  refine ⟨fun h => Option.some_injective _ ?_, congrArg _⟩
  rw [← ResultCode.ofBits_bits c, h, ResultCode.ofBits_bits]

/-- STSIG after a command that ended with OK writes STATUS_SIG alone. -/
theorem exec_stsig_of_ok {s : State} (hok : s.hopCode = .ok) (imm : Bool) :
    exec (.stsig imm) s = .next (s.setStatusSig imm) := by
  have hsame : (s.setStatusSig imm).setHopCode s.hopCode = s.setStatusSig imm := rfl
  rw [exec_stsig, ← hok, hsame]

/-- After a successful TPROG the hop reports FREQ and holds STATUS_SIG high during the dwell window only. -/
theorem hopSignal_eq {s : State} (bytes : Nat) (q : Response) (hline : s.resetLine = false) (hok : s.hopCode = .ok) :
    hopSignal bytes (s.setResponse q) = .next (.reported (hopReport bytes s.freq)
      ((s.setStatusSig true).setResponse .done) ((s.setStatusSig false).setResponse .done)) := by
  have low : runStmts [.rd .freqLo] (s.setResponse q) = .next (s.setResponse (.word (freqLow s.freq))) :=
    runStmts_rd q hline (by decide) (by decide)
  have high : runStmts [.rd .freqHi] (s.setResponse (.word (freqLow s.freq))) =
      .next (s.setResponse (.word (freqHigh s.freq))) := runStmts_rd _ hline (by decide) (by decide)
  have dwell := runStmts_command (.word (freqHigh s.freq)) hline (exec_stsig_of_ok hok true)
  have block : runStmts [.command (.stsig false)] ((s.setStatusSig true).setResponse .done) =
      .next ((s.setStatusSig false).setResponse .done) :=
    runStmts_command .done hline (exec_stsig_of_ok (s := s.setStatusSig true) hok false)
  rw [hopSignal, low, andThen_next, high, andThen_next, dwell, andThen_next, block, andThen_next,
    State.setResponse_response, State.setResponse_response, Response.wordData_word, Response.wordData_word,
    freqHigh_append_freqLow]

/-- A command other than STSIG leaves STATUS_SIG. -/
theorem exec_keeps_statusSig {i : Instr} {s t : State} (h : exec i s = .next t) (hi : ∀ imm, i ≠ .stsig imm) :
    t.statusSig = s.statusSig :=
  (exec_effect h).statusSig.resolve_right (hi _)

/-- A hop is FRQNEXT, TPROG and the host's choice on the code TPROG left. -/
theorem hopCycle_eq {s t u : State} (bytes : Nat) (hline : s.resetLine = false) (ht : exec .frqnext s = .next t)
    (hu : exec .tprog t = .next u) :
    hopCycle bytes s = hopAfterCode bytes u.hopCode.bits (u.setResponse (.word (resultWord u.hopCode))) := by
  have htline : t.resetLine = false := (exec_effect ht).resetLine.trans hline
  have huline : u.resetLine = false := (exec_effect hu).resetLine.trans htline
  have frqnext : runStmts [.command .frqnext] s = .next (t.setResponse .done) := runStmts_command s.response hline ht
  have tprog := runStmts_command .done htline hu
  have code : runStmts [.rd .hopResult] (u.setResponse .done) =
      .next (u.setResponse (.word (resultWord u.hopCode))) := runStmts_rd .done huline (by decide) (by decide)
  rw [hopCycle, runStmts_cons, frqnext, andThen_next, runStmts_cons, tprog, andThen_next, code, andThen_next,
    State.setResponse_response, Response.byteData_resultWord]

/-! ### The classes of failures (43_host_sequences.md R129, 60_exceptions.md R147) -/

theorem failureClasses_command_bits (c : ResultCode) :
    failureClasses (.command c.bits) = (hostErrorClass c).toList := by
  rw [failureClasses, ResultCode.ofBits_bits, Option.bind_some]

/-- A byte stands for the code whose byte it is. -/
theorem ResultCode.bits_of_ofBits {b : Byte} {c : ResultCode} (h : ResultCode.ofBits b = some c) : c.bits = b :=
  beq_iff_eq.1 (List.find?_some (p := fun c : ResultCode => c.bits == b) h)

/-- The classes of every byte a RESULT register can show, those that stand for no code among them. -/
theorem failureClasses_command (code : Byte) : failureClasses (.command code) =
    if code = 0x02#8 ∨ code = 0x03#8 then [.configurationFatal]
    else if code = 0x01#8 ∨ code = 0x04#8 then [.programming] else [] := by
  cases h : ResultCode.ofBits code with
  | some c =>
    obtain rfl := ResultCode.bits_of_ofBits h
    rw [failureClasses_command_bits]
    cases c <;> rfl
  | none =>
    have hne (c : ResultCode) : code ≠ c.bits := by
      rintro rfl
      rw [ResultCode.ofBits_bits] at h
      cases h
    have hfatal : ¬(code = 0x02#8 ∨ code = 0x03#8) := not_or.2 ⟨hne .unachHigh, hne .unachLow⟩
    have hprogramming : ¬(code = 0x01#8 ∨ code = 0x04#8) := not_or.2 ⟨hne .illegal, hne .full⟩
    rw [if_neg hfatal, if_neg hprogramming, failureClasses, h]
    rfl

/-- Where TPROG fails its code is one of the two of PeriodMap, of the class Configuration/fatal. -/
theorem failureClasses_of_tprog {s t : State} (h : exec .tprog s = .next t) (hne : t.hopCode ≠ .ok) :
    failureClasses (.command t.hopCode.bits) = [.configurationFatal] := by
  cases exec_effect h with
  | tprogPair _ => exact absurd rfl hne
  | tprogFail hm => rcases periodMap_error hm with rfl | rfl <;> exact failureClasses_command_bits _

/-! ### The state machine of a transmission (43_host_sequences.md R125, R127) -/

section Transmit

variable {ceiling n : Nat} {frame : List Byte} {r : Reply}

/-- The machine that has ended sends nothing more. -/
theorem transmit_of_ended (replies : List Reply) {t : TxState} (h : t = .acked ∨ t = .failed) :
    transmit ceiling frame replies t = ([], t) := by
  rcases h with rfl | rfl <;> cases replies <;> rfl

/-- An acknowledged attempt is the last one, and ends in ACKED. -/
theorem transmit_ack (h : r.isAck = true) (rest : List Reply) :
    transmit ceiling frame (r :: rest) (.sending n) = ([frame], .acked) := by
  simp only [transmit, afterAttempt_ack ceiling n h, transmit_of_ended rest (.inl rfl)]

/-- A failed attempt at the ceiling is the last one, and ends in FAILED. -/
theorem transmit_fail_at_ceiling (h : r.isAck = false) (rest : List Reply) :
    transmit ceiling frame (r :: rest) (.sending ceiling) = ([frame], .failed) := by
  simp only [transmit, afterAttempt_fail ceiling ceiling h, if_pos, transmit_of_ended rest (.inr rfl)]

/-- A failed attempt below the ceiling is followed by the next attempt. -/
theorem transmit_fail_below_ceiling (h : r.isAck = false) (hn : n ≠ ceiling) (rest : List Reply) :
    transmit ceiling frame (r :: rest) (.sending n) =
      (frame :: (transmit ceiling frame rest (.sending (n + 1))).1,
        (transmit ceiling frame rest (.sending (n + 1))).2) := by
  simp only [transmit, afterAttempt_fail ceiling n h, if_neg hn]

/-- At most `k` failed attempts where `k` retransmissions are left, and then an acknowledgment: ACKED. -/
theorem transmit_acked {k : Nat} {fails : List Reply} (hfails : ∀ r ∈ fails, r.isAck = false) (hack : r.isAck = true)
    (hk : fails.length ≤ k) : transmit (n + k) frame (fails ++ [r]) (.sending n) =
      (List.replicate (fails.length + 1) frame, .acked) := by
  induction fails generalizing n k with
  | nil => exact transmit_ack hack []
  | cons f fails ih =>
    obtain ⟨hf, hfails⟩ := List.forall_mem_cons.1 hfails
    obtain ⟨k, rfl⟩ := Nat.exists_eq_succ_of_ne_zero (Nat.ne_zero_of_lt hk)
    have hceiling : n + (k + 1) = n + 1 + k := by omega
    rw [List.cons_append, transmit_fail_below_ceiling hf (by omega), hceiling, ih hfails (Nat.le_of_succ_le_succ hk)]
    rfl

/-- More than `k` failed attempts where `k` retransmissions are left: FAILED, whatever replies would follow. -/
theorem transmit_failed {k : Nat} {fails rest : List Reply} (hfails : ∀ r ∈ fails, r.isAck = false)
    (hk : k < fails.length) : transmit (n + k) frame (fails ++ rest) (.sending n) =
      (List.replicate (k + 1) frame, .failed) := by
  induction fails generalizing n k with
  | nil => exact absurd hk (Nat.not_lt_zero k)
  | cons f fails ih =>
    obtain ⟨hf, hfails⟩ := List.forall_mem_cons.1 hfails
    cases k with
    | zero => exact transmit_fail_at_ceiling hf _
    | succ k =>
      have hceiling : n + (k + 1) = n + 1 + k := by omega
      rw [List.cons_append, transmit_fail_below_ceiling hf (by omega), hceiling, ih hfails (Nat.lt_of_succ_lt_succ hk)]
      rfl

end Transmit

/-! ### The transmission over the block (43_host_sequences.md R125, R126, R128) -/

/-- What the host records of a transmission that sent the frames `sent` and ended in `fate`: every reply to one of those
frames that is no acknowledgment, and the terminal failure where the end is FAILED. -/
def failureRecord (replies : List Reply) (sent : List (List Byte)) (fate : TxState) : List HostFailure :=
  ((replies.take sent.length).filter fun r => !r.isAck).map .acknowledgment ++
    if fate = .failed then [.retriesExhausted] else []

theorem failureRecord_nil (replies : List Reply) (fate : TxState) :
    failureRecord replies [] fate = if fate = .failed then [.retriesExhausted] else [] := rfl

theorem failureRecord_cons (r : Reply) (rest : List Reply) (frame : List Byte) (sent : List (List Byte))
    (fate : TxState) : failureRecord (r :: rest) (frame :: sent) fate =
      (if r.isAck then [] else [.acknowledgment r]) ++ failureRecord rest sent fate := by
  cases h : r.isAck <;> simp [failureRecord, h]

section SendAttempts

variable {ceiling n : Nat} {r : Reply} {rest : List Reply} {s : State}

/-- The loop that has ended does nothing more. -/
theorem sendAttempts_of_ended (replies : List Reply) {t : TxState} (h : t = .acked ∨ t = .failed) :
    sendAttempts ceiling replies t s = .next ⟨s, [], t, []⟩ := by
  rcases h with rfl | rfl <;> cases replies <;> rfl

/-- An attempt fetches the frame in the block, and what follows it starts from the block with another bus answer. -/
theorem sendAttempts_cons (hline : s.resetLine = false) :
    ∃ q, sendAttempts ceiling (r :: rest) (.sending n) s =
      andThen (sendAttempts ceiling rest (afterAttempt ceiling (.sending n) r) (s.setResponse q)) fun x =>
        .next { x with
          sent := frameBytes s :: x.sent
          failures := attemptFailures r (afterAttempt ceiling (.sending n) r) ++ x.failures } := by
  obtain ⟨q, hread⟩ := readFrame_eq s hline
  exact ⟨q, by simp only [sendAttempts, hread, andThen_next]⟩

/-- The attempts over the block are the state machine on the frame in the block; they leave the block as it is but for
the bus answer. By induction on the replies, and for each by how its attempt ends. -/
theorem sendAttempts_eq (ceiling : Nat) (replies : List Reply) (hline : s.resetLine = false)
    {sent : List (List Byte)} {fate : TxState}
    (htx : transmit ceiling (frameBytes s) replies (.sending n) = (sent, fate)) :
    ∃ q, sendAttempts ceiling replies (.sending n) s =
      .next ⟨s.setResponse q, sent, fate, failureRecord replies sent fate⟩ := by
  induction replies generalizing n s sent fate with
  | nil =>
    cases htx
    exact ⟨s.response, rfl⟩
  | cons r rest ih =>
    obtain ⟨q, hattempt⟩ := sendAttempts_cons (ceiling := ceiling) (n := n) (r := r) (rest := rest) hline
    rw [hattempt]
    cases hr : r.isAck with
    | true =>
      rw [transmit_ack hr] at htx
      cases htx
      refine ⟨q, ?_⟩
      rw [afterAttempt_ack ceiling n hr, sendAttempts_of_ended rest (.inl rfl), andThen_next]
      simp [attemptFailures, failureRecord_cons, failureRecord_nil, hr]
    | false =>
      rw [afterAttempt_fail ceiling n hr]
      by_cases hn : n = ceiling
      · subst hn
        rw [transmit_fail_at_ceiling hr] at htx
        cases htx
        refine ⟨q, ?_⟩
        rw [if_pos rfl, sendAttempts_of_ended rest (.inr rfl), andThen_next]
        simp [attemptFailures, failureRecord_cons, failureRecord_nil, hr]
      · rw [transmit_fail_below_ceiling hr hn] at htx
        cases htx
        obtain ⟨q', hrest⟩ := ih (s := s.setResponse q) (n := n + 1) hline rfl
        refine ⟨q', ?_⟩
        rw [if_neg hn, hrest, andThen_next]
        simp [attemptFailures, failureRecord_cons, hr]

end SendAttempts

/-! ### The record where the attempts fail first (43_host_sequences.md R126, R127) -/

/-- Failing replies are recorded, each of them. -/
theorem filter_not_isAck_of_fails {fails : List Reply} (hfails : ∀ r ∈ fails, r.isAck = false) :
    (fails.filter fun r => !r.isAck) = fails :=
  List.filter_eq_self.2 fun r hr => by rw [hfails r hr]; rfl

/-- ACKED after failed attempts: they are recorded and nothing else. -/
theorem failureRecord_acked {fails : List Reply} {r : Reply} (hfails : ∀ r ∈ fails, r.isAck = false)
    (hack : r.isAck = true) (frame : List Byte) :
    failureRecord (fails ++ [r]) (List.replicate (fails.length + 1) frame) .acked = fails.map .acknowledgment := by
  have htake : (fails ++ [r]).take (fails.length + 1) = fails ++ [r] := List.take_of_length_le (by simp)
  simp [failureRecord, htake, filter_not_isAck_of_fails hfails, hack]

/-- FAILED after `k + 1` failed attempts: they are recorded, and the terminal failure. -/
theorem failureRecord_failed {k : Nat} {fails : List Reply} (hfails : ∀ r ∈ fails, r.isAck = false)
    (hk : k < fails.length) (rest : List Reply) (frame : List Byte) :
    failureRecord (fails ++ rest) (List.replicate (k + 1) frame) .failed =
      (fails.take (k + 1)).map .acknowledgment ++ [.retriesExhausted] := by
  have htaken : ∀ r ∈ fails.take (k + 1), r.isAck = false := fun r hr => hfails r (List.mem_of_mem_take hr)
  simp only [failureRecord, List.length_replicate, List.take_append_of_le_length (Nat.succ_le_of_lt hk),
    filter_not_isAck_of_fails htaken, if_pos]

/-! ### The frame of a transmission (43_host_sequences.md R125) -/

theorem length_frameBytes (s : State) : (frameBytes s).length = 401 :=
  (List.length_map _).trans List.length_range

theorem getElem?_frameBytes (s : State) {j : Nat} (hj : j ≤ 400) : (frameBytes s)[j]? = some (s.frameByte j) := by
  have hlt : j < Config.frameLen := Nat.lt_succ_of_le hj
  rw [frameBytes, List.getElem?_map, List.getElem?_range hlt, Option.map_some]

/-- With the frame complete the host sees FRAME_RDY = 1 in SPR_STAT, and the attempts start on the frame that SPREAD100
laid down. -/
theorem transmitSignal_eq {s : State} {samples : List Word} (ceiling : Nat) (replies : List Reply)
    (hwf : Memory.wf s.modbuf = true) (hline : s.resetLine = false) (hlen : samples.length = 100) :
    ∃ t q, Pushed ((s.setIdx 0).setSprCode .ok) samples t ∧
      transmitSignal ceiling samples replies s = sendAttempts ceiling replies (.sending 0) (t.setResponse q) := by
  obtain ⟨t, ht, hpushed⟩ := issueAll_spread100 hwf hline hlen.le
  have hready : t.frameReady = true := decide_eq_true (hpushed.idx_eq_of_idx_zero rfl hlen)
  have spread : runStmts [.spread100 samples] s = .next t := by
    rw [← ht, runStmts, scriptEvents, List.flatMap_singleton]
  have stat : runStmts [.rd .sprStat] t = .next (t.setResponse (.word (sprStatWord t))) :=
    runStmts_rd t.response (hpushed.resetLine.trans hline) (by decide) (by decide)
  refine ⟨t, .word (sprStatWord t), hpushed, ?_⟩
  rw [transmitSignal, runStmts_cons, spread, andThen_next, stat, andThen_next, State.setResponse_response,
    Response.wordData_word, getLsbD_sprStatWord, if_pos rfl, hready, txNext_start, if_pos rfl]

end Sys2Proof.Machine
end

section
/-! The statements on the host's sequences (43_host_sequences.md), from the facts above. -/

namespace Sys2Proof.Machine

/-- Settles O57: from the first attempt the whole ceiling is left (`transmit_acked`, `transmit_failed`). -/
theorem retryIsBoundedAndByteIdentical : Obligations.RetryIsBoundedAndByteIdentical := by
  intro ceiling frame fails hfails
  have acked (hk : fails.length ≤ ceiling) := transmit_acked (n := 0) (frame := frame) (r := .byte 0x55#8) hfails rfl hk
  have failed (hk : ceiling < fails.length) :=
    transmit_failed (n := 0) (frame := frame) (rest := [.byte 0x55#8]) hfails hk
  rw [Nat.zero_add] at acked failed
  exact ⟨acked, failed⟩

/-- Settles O53: TPROG leaves LCG and STATUS_SIG as FRQNEXT left them, and the host goes on by the code
(`hopCycle_eq`, `hopSignal_eq`). -/
theorem hopReportsOrStopsHard : Obligations.HopReportsOrStopsHard := by
  intro bytes s hline
  obtain ⟨t, ht, -⟩ := exec_pending .frqnext s []
  obtain ⟨u, hu, -⟩ := exec_pending .tprog t []
  have hlcg : u.lcg = lcgStep s.lcg := (exec_effect hu).lcg.trans (exec_effect ht).lcg
  have hsig : u.statusSig = s.statusSig := (exec_keeps_statusSig hu nofun).trans (exec_keeps_statusSig ht nofun)
  have huline : u.resetLine = false := (exec_effect hu).resetLine.trans ((exec_effect ht).resetLine.trans hline)
  refine ⟨t, u, ht, hu, by rw [hlcg, lcgStep_toNat], hsig, fun hok => ?_, fun hne => ⟨?_, ?_⟩⟩
  · rw [hopCycle_eq bytes hline ht hu, hopAfterCode, if_pos (congrArg _ hok)]
    exact hopSignal_eq bytes _ huline hok
  · rw [hopCycle_eq bytes hline ht hu, hopAfterCode, if_neg (mt ResultCode.bits_inj.1 hne), resultWord_eq_setWidth]
    rfl
  · exact failureClasses_of_tprog hu hne

/-- Settles O54: the frame is the one SPREAD100 lays down (`transmitSignal_eq`), and the attempts on it are the state
machine's (`sendAttempts_eq`). -/
theorem transmissionSendsTheSpreadFrame : Obligations.TransmissionSendsTheSpreadFrame := by
  intro ceiling s samples replies hwf hline hlen
  obtain ⟨t, q, hpushed, htransmit⟩ := transmitSignal_eq ceiling replies hwf hline hlen
  have htline : (t.setResponse q).resetLine = false := hpushed.resetLine.trans hline
  obtain ⟨q', hattempts⟩ := sendAttempts_eq ceiling replies (n := 0) htline rfl
  refine ⟨_, htransmit.trans hattempts, decide_eq_true (hpushed.idx_eq_of_idx_zero rfl hlen), rfl,
    length_frameBytes _, getElem?_frameBytes _ (Nat.zero_le _), fun i hi => ?_⟩
  obtain ⟨m, hm, hbytes⟩ := hpushed.sample_of_idx_zero rfl hi
  refine ⟨m, hm, fun k hk => ?_⟩
  rw [getElem?_frameBytes _ (by omega), Nat.add_assoc, Nat.add_comm 1, frameByte_succ]
  exact congrArg some (hbytes k hk)

/-- Settles O56: the attempts over the block end as the state machine does, with its record (`sendAttempts_eq`), and
each failure has its classes. -/
theorem failedAttemptsAreRecordedByClass : Obligations.FailedAttemptsAreRecordedByClass := by
  refine ⟨fun ceiling s fails hline hfails => ?_, rfl, fun b hb => ?_, rfl, failureClasses_command⟩
  · obtain ⟨hacked, hfailed⟩ := retryIsBoundedAndByteIdentical ceiling (frameBytes s) fails hfails
    obtain ⟨q, hattempts⟩ := sendAttempts_eq ceiling (fails ++ [.byte 0x55#8]) (n := 0) hline rfl
    refine ⟨_, hattempts, fun hk => ?_, fun hk => ?_⟩
    · rw [hacked hk]
      exact ⟨rfl, rfl, failureRecord_acked hfails rfl _⟩
    · rw [hfailed hk]
      exact ⟨rfl, rfl, failureRecord_failed hfails hk _ _⟩
  · have hno : (Reply.byte b).isAck = false := decide_eq_false hb
    simp [failureClasses, replyClasses, hno]

end Sys2Proof.Machine
end

section
/-! SUPPORT. Errors and resets (60_exceptions.md): which steps keep the sticky flags, what releasing reset leaves, and
the codes as the host reads them. -/

namespace Sys2Proof.Machine

/-! ### Sticky flags (60_exceptions.md R141) -/

/-- No sticky flag that is 1 in `s` is 0 in `t`. -/
structure KeepsSticky (s t : State) : Prop where
  hopFIll : s.hopFIll = true → t.hopFIll = true
  hopFUnach : s.hopFUnach = true → t.hopFUnach = true
  sprFIll : s.sprFIll = true → t.sprFIll = true
  sprFFull : s.sprFFull = true → t.sprFFull = true

/-- An error sets the one flag it is paired with and leaves the other three. -/
theorem raise_keepsSticky (e : BlockError) (s : State) : KeepsSticky s (raise e s) := by
  cases e with
  | illegal u =>
    cases u with
    | hopper => exact ⟨fun _ => rfl, id, id, id⟩
    | spreader => exact ⟨id, id, fun _ => rfl, id⟩
  | unachHigh | unachLow => exact ⟨id, fun _ => rfl, id, id⟩
  | full => exact ⟨id, id, id, fun _ => rfl⟩

/-- A command touches the flags only where it raises an error. -/
theorem CommandEffect.keepsSticky {i : Instr} {s t : State} (h : CommandEffect s i t) : KeepsSticky s t := by
  cases h with
  | lcgnext | frqnext | tprogPair _ | stsig _ | spstart => exact ⟨id, id, id, id⟩
  | sppushRoom _ => constructor <;> simp
  | tprogFail _ | sppushFull _ => exact raise_keepsSticky _ s

/-- A word on a command register, legal or not, clears no flag. -/
theorem runCommand_keepsSticky {p : Port} {w : Word} {s t : State} (h : runCommand p w s = .next t) :
    KeepsSticky s t := by
  rcases runCommand_effect h with ⟨i, -, -, he⟩ | rfl
  · exact he.keepsSticky
  · exact raise_keepsSticky _ s

/-- Outside reset no step clears a flag: only command words reach the flags at all. -/
theorem step_keepsSticky {s t : State} (h : step s = .next t) (hreset : ¬ s.nextDrivesReset) : KeepsSticky s t := by
  cases step_effect h with
  | idle _ ht | read _ _ _ _ ht | writeFreq _ _ _ _ ht | writeSample _ _ _ _ ht =>
    rw [ht]
    exact ⟨id, id, id, id⟩
  | drive b rest hp _ => exact absurd ⟨b, rest, hp⟩ hreset
  | command p w rest _ ht =>
    obtain ⟨hill, hunach, sill, sfull⟩ := runCommand_keepsSticky ht
    exact ⟨hill, hunach, sill, sfull⟩

/-! ### Releasing reset (70_reset_and_hazards.md R160) -/

/-- The step that releases an asserted reset. -/
theorem step_release {s : State} {rest : List HostEvent} (hline : s.resetLine = true)
    (hp : s.pending = .drive false :: rest) :
    step s = .next ((applyReset (s.setPending rest)).setResetLine false) := by
  rw [step_drive hp]
  rcases driveReset_cases false (s.setPending rest) with ⟨hb, -⟩ | ⟨-, -, hd⟩ | ⟨-, hline', -⟩
  · cases hb
  · rw [hd]
  · cases hline.symm.trans hline'

/-! ### The codes in the RESULT registers (60_exceptions.md R140) -/

theorem readReg_hopResult_of_code {s : State} {c : ResultCode} (h : s.hopCode = c) :
    readReg .hopResult s = c.bits.setWidth 32 := h ▸ resultWord_eq_setWidth s.hopCode

theorem readReg_sprResult_of_code {s : State} {c : ResultCode} (h : s.sprCode = c) :
    readReg .sprResult s = c.bits.setWidth 32 := h ▸ resultWord_eq_setWidth s.sprCode

end Sys2Proof.Machine
end

section
/-! The statements on errors (60_exceptions.md), from the facts above. -/

namespace Sys2Proof.Machine

/-- Settles O34: the two writes of each error, the flags over a step (`step_keepsSticky`), and the state that the
release of reset leaves (`step_release`). -/
theorem raiseWritesCodeAndStickyFlagOnly : Obligations.RaiseWritesCodeAndStickyFlagOnly := by
  refine ⟨fun s => ⟨rfl, rfl, rfl, rfl, rfl⟩, fun s t h hreset => ?_, fun s rest hline hp => ?_⟩
  · obtain ⟨hill, hunach, sill, sfull⟩ := step_keepsSticky h hreset
    exact ⟨hill, hunach, sill, sfull⟩
  · have hflags := applyReset_atReset (s.setPending rest)
    exact ⟨_, step_release hline hp, hflags.hopFIll, hflags.hopFUnach, hflags.sprFIll, hflags.sprFFull⟩

/-- Settles O44: the byte of each code, widened to the register's 32 bits. -/
theorem resultCodesReadAsListed : Obligations.ResultCodesReadAsListed :=
  fun _ => ⟨readReg_hopResult_of_code, readReg_hopResult_of_code, readReg_hopResult_of_code,
    readReg_hopResult_of_code, readReg_sprResult_of_code, readReg_sprResult_of_code, readReg_sprResult_of_code⟩

end Sys2Proof.Machine
end

section
/-! SUPPORT. Accesses during reset, and the two commands of a hop on a clock below the band (70_reset_and_hazards.md). -/

namespace Sys2Proof.Machine

/-! ### Accesses while reset is asserted (70_reset_and_hazards.md R160) -/

/-- While reset is asserted the step that takes an access, whatever access it is, is a BusError. -/
theorem step_access_inReset {s : State} {a : Access} {rest : List HostEvent} (hline : s.resetLine = true)
    (hp : s.pending = .access a :: rest) : step s = .fault (.busError .inReset) :=
  step_not_admitted hp (by rw [hline]; rfl)

/-! ### The two accesses of HOP (30_encoding.md R70) -/

/-- With reset released, the accesses of HOP run FRQNEXT and then TPROG. -/
theorem issueAll_hop {s t u : State} (hline : s.resetLine = false) (ht : exec .frqnext s = .next t)
    (hu : exec .tprog t = .next u) : issueAll (stmtEvents .hop) s = .next (u.setResponse .done) := by
  have frqnext : runStmts [.command .frqnext] s = .next (t.setResponse .done) := runStmts_command s.response hline ht
  have tprog : runStmts [.command .tprog] (t.setResponse .done) = .next (u.setResponse .done) :=
    runStmts_command .done ((exec_effect ht).resetLine.trans hline) hu
  calc issueAll (stmtEvents .hop) s
      = runStmts [.command .frqnext, .command .tprog] s := rfl
    _ = .next (u.setResponse .done) := by rw [runStmts_cons, frqnext, andThen_next, tprog]

/-- FRQNEXT generates no frequency below F_LO, so on a slower clock TPROG finds it too high
(70_reset_and_hazards.md R164). -/
theorem exec_tprog_of_frqnext_slowClock {s t : State} (hclk : s.params.fClk < 300000000)
    (ht : exec .frqnext s = .next t) : exec .tprog t = .next (raise .unachHigh t) := by
  obtain ⟨hparams, -⟩ := (exec_effect ht).params_pn
  obtain ⟨hfreq, -⟩ := generatedFrequencyStaysInTheBand s t ht
  refine exec_tprog_fail (periodMap_of_fClk_lt ?_)
  rw [hparams]
  omega

end Sys2Proof.Machine
end

section
/-! The statements on reset and the clock (70_reset_and_hazards.md), from the facts above. -/

namespace Sys2Proof.Machine

/-- Settles O33: no access is admitted (`step_access_inReset`), and the release, alone or after the assertion, leaves the
state of `applyReset` (`step_release`, `run_assert_release`). -/
theorem resetReturnsTheBlockToItsResetState : Obligations.ResetReturnsTheBlockToItsResetState := by
  refine ⟨fun s a rest hline hp => ?_, fun s rest hline hp => ?_, fun s rest hp => ?_⟩
  · exact ⟨.inReset, step_access_inReset hline hp⟩
  · have hreset := applyReset_atReset (s.setPending rest)
    exact ⟨_, step_release hline hp, { hreset with }, rfl⟩
  · have hreset := applyReset_atReset s
    exact ⟨_, run_assert_release (k := 0) hp, { hreset with }, rfl, rfl, rfl⟩

/-- Settles O51: FRQNEXT steps LCG and leaves the timer, and TPROG on its frequency only raises E_UNACH_HIGH
(`exec_tprog_of_frqnext_slowClock`). -/
theorem hopFailsOnASlowClock : Obligations.HopFailsOnASlowClock := by
  intro s rest hline hclk hp
  have hfrqnext := exec_frqnext (s.setPending rest)
  have htprog := exec_tprog_of_frqnext_slowClock (s := s.setPending rest) hclk hfrqnext
  have hrun := (run_eq_issueAll_of_pending hp).trans (issueAll_hop (s := s.setPending rest) hline hfrqnext htprog)
  exact ⟨_, hrun, rfl, rfl, rfl, rfl, rfl, lcgStep_toNat s.lcg⟩

end Sys2Proof.Machine
end

section
/-! SUPPORT. The refused words of the map, what a command leaves of the model's own fields, a placed command, the bytes of
the hop report, and a transmission whose frame is incomplete. -/

namespace Sys2Proof.Machine

/-! ### Words of the map that are refused (30_encoding.md R62, R66) -/

theorem decode_wrongUnit {p : Port} {w : Word} (hhigh : fieldHigh w = 0#23) (hunit : fieldUnit w ≠ p.unit.code) :
    decode p w = .error .wrongUnit := by
  simp only [decode, if_neg (not_not.2 hhigh), if_pos hunit]

/-- Neither function of the Spreader has an immediate. -/
theorem decodeSpreader_immediateSet {fn : BitVec 4} (hfn : fn = 0x1#4 ∨ fn = 0x2#4) :
    decodeSpreader fn true = .error .immediateSet := by
  rcases hfn with rfl | rfl <;> rfl

theorem decode_sprCmd {w : Word} (hhigh : fieldHigh w = 0#23) (hunit : fieldUnit w = Port.sprCmd.unit.code) :
    decode .sprCmd w = decodeSpreader (fieldFn w) (fieldImm w) := by
  rw [decode, if_neg (not_not.2 hhigh), if_neg (not_not.2 hunit)]

/-! ### What a command leaves of the model's own fields (log entries 8, 15) -/

/-- A push takes a draw or none. -/
theorem State.draws_le_drawsAfterPush (s : State) : s.draws ≤ s.drawsAfterPush := by
  rw [State.drawsAfterPush]
  split_ifs
  · exact Nat.le_succ _
  · exact le_rfl

theorem CommandEffect.draws_le {i : Instr} {s t : State} (h : CommandEffect s i t) : s.draws ≤ t.draws := by
  cases h with
  | lcgnext | frqnext | tprogPair _ | stsig _ | spstart | sppushFull _ => exact le_rfl
  | sppushRoom _ => exact s.draws_le_drawsAfterPush
  | @tprogFail e _ =>
    obtain ⟨_, _, _, _, _, _, he⟩ := raise_frame e s
    rw [he]

/-- No command answers on the bus: with the answer written back, its execution is the same one. -/
theorem exec_keeps_response {i : Instr} {s t : State} (h : exec i s = .next t) : t.response = s.response := by
  have hback : exec i s = .next (t.setResponse s.response) := exec_setResponse h s.response
  rw [h] at hback
  injection hback with ht
  rw [ht, State.setResponse_response]

/-! ### A command placed by `withFetchWord` (log entries 2, 3) -/

theorem tableWord_toNat (w : Word) : tableWord 32 w.toNat = w := by
  rw [tableWord, Nat.mod_eq_of_lt w.isLt, BitVec.ofNat_toNat, BitVec.setWidth_eq]

/-- The UNIT field of an instruction's word names the instruction's port. -/
theorem tablePort_encode (i : Instr) : tablePort (encode i) = i.port := by
  obtain ⟨-, hunit, -⟩ := encodedFields i
  rw [tablePort, hunit]
  cases i.port <;> rfl

theorem tableAccess_encode (i : Instr) :
    tableAccess 32 (encode i).toNat = .write .word (portOffset i.port) (encode i) := by
  rw [tableAccess, tableWord_toNat, tablePort_encode]

theorem nextAccess_withFetchWord_encode (i : Instr) (s : State) :
    (s.withFetchWord 32 (encode i).toNat).NextAccess (.write .word (portOffset i.port) (encode i)) s.pending where
  released := rfl
  pending := by rw [State.withFetchWord, tableAccess_encode, State.setPending_pending]

/-! ### The open parameters (00_scope.md R7) -/

/-- The parameters with no body lie in their ranges, whatever their values. -/
theorem configParams_wf : Config.params.wf = true := by
  have hclk := Config.fClkLess1.isLt
  have hpsc := Config.pscBitsLess1.isLt
  have harr := Config.arrBitsLess1.isLt
  rw [params_wf_iff]
  simp only [Config.params]
  omega

/-! ### The bytes of the hop report (43_host_sequences.md R123) -/

theorem length_hopReport (n : Nat) (f : DWord) : (hopReport n f).length = n := by
  rw [hopReport, List.length_map, List.length_range]

/-- A report of one byte more is the low byte, then the report of what stands above it. -/
theorem hopReport_succ (n : Nat) (f : DWord) :
    hopReport (n + 1) f = f.extractLsb' 0 8 :: hopReport n (f >>> 8) := by
  have hbyte (k : Nat) : f.extractLsb' (8 * (k + 1)) 8 = (f >>> 8).extractLsb' (8 * k) 8 := by
    ext i hi
    have hbit : 8 * (k + 1) + i = 8 + (8 * k + i) := by omega
    simp [hbit]
  rw [hopReport, List.range_succ_eq_map, List.map_cons, List.map_map]
  congr 1
  exact List.map_congr_left fun k _ => hbyte k

/-- The `n` bytes of a report, least significant first, are FREQ modulo 256^n, by induction on the bytes. -/
theorem foldr_hopReport (n : Nat) (f : DWord) :
    (hopReport n f).foldr (fun b acc => b.toNat + 256 * acc) 0 = f.toNat % 256 ^ n := by
  induction n generalizing f with
  | zero => exact (Nat.mod_one _).symm
  | succ n ih =>
    have hlow : (f.extractLsb' 0 8).toNat = f.toNat % 256 := BitVec.extractLsb'_toNat ..
    have hrest : (f >>> 8).toNat = f.toNat / 256 := Nat.shiftRight_eq_div_pow f.toNat 8
    rw [hopReport_succ, List.foldr_cons, ih, hlow, hrest, Nat.pow_succ', Nat.mod_mul]

theorem foldr_hopReport_of_lt {n : Nat} {f : DWord} (h : f.toNat < 256 ^ n) :
    (hopReport n f).foldr (fun b acc => b.toNat + 256 * acc) 0 = f.toNat := by
  rw [foldr_hopReport, Nat.mod_eq_of_lt h]

/-! ### A transmission of too few samples (43_host_sequences.md R125; log entry 21)

`Pushed` speaks of the bytes of MODBUF and so asks for its canonical form; the count of samples needs no such form. -/

/-- A PUSH while a sample fits completes and moves IDX on by one. -/
theorem exists_issueAll_push_idx {s : State} (x : Word) (hline : s.resetLine = false) (hi : s.idx.val < 100) :
    ∃ t, issueAll (pushEvents x) s = .next t ∧ t.idx.val = s.idx.val + 1 ∧ t.resetLine = false := by
  have hexec := exec_sppush_of_lt (s := (s.setSampleIn x).setResponse .done) hi
  exact ⟨_, (issueAll_push x hline).trans hexec, idx_succ_val hi.ne, hline⟩

/-- As many pushes as fit complete and move IDX on by their number, whatever MODBUF holds. -/
theorem exists_issueAll_pushes_idx {s : State} {samples : List Word} (hline : s.resetLine = false)
    (hfit : s.idx.val + samples.length ≤ 100) :
    ∃ t, issueAll (samples.flatMap pushEvents) s = .next t ∧ t.idx.val = s.idx.val + samples.length ∧
      t.resetLine = false := by
  induction samples generalizing s with
  | nil => exact ⟨s, rfl, rfl, hline⟩
  | cons x xs ih =>
    rw [List.length_cons] at hfit ⊢
    obtain ⟨u, hu, huidx, huline⟩ := exists_issueAll_push_idx x hline (by omega)
    obtain ⟨t, ht, htidx, htline⟩ := ih huline (by omega)
    exact ⟨t, by rw [List.flatMap_cons, issueAll_append, hu, andThen_next, ht], by omega, htline⟩

/-- SPREAD100 of at most 100 samples completes with IDX the number of samples, whatever MODBUF holds. -/
theorem exists_issueAll_spread100_idx {s : State} {samples : List Word} (hline : s.resetLine = false)
    (hlen : samples.length ≤ 100) :
    ∃ t, issueAll (stmtEvents (.spread100 samples)) s = .next t ∧ t.idx.val = samples.length ∧
      t.resetLine = false := by
  have hstart : issue (commandEvent .spstart) s = .next (((s.setResponse .done).setIdx 0).setSprCode .ok) :=
    issue_command .spstart hline
  obtain ⟨t, ht, hidx, htline⟩ := exists_issueAll_pushes_idx
    (s := ((s.setResponse .done).setIdx 0).setSprCode .ok) (samples := samples) hline
    ((Nat.zero_add _).trans_le hlen)
  exact ⟨t, by rw [stmtEvents, issueAll_cons, hstart, andThen_next, ht], hidx.trans (Nat.zero_add _), htline⟩

/-- Once SPREAD100 has completed, the host reads FRAME_RDY in SPR_STAT and goes on by it. -/
theorem transmitSignal_of_spread {s t : State} {samples : List Word} (ceiling : Nat) (replies : List Reply)
    (h : issueAll (stmtEvents (.spread100 samples)) s = .next t) (hline : t.resetLine = false) :
    transmitSignal ceiling samples replies s =
      sendAttempts ceiling replies (if t.frameReady then .sending 0 else .notReady)
        (t.setResponse (.word (sprStatWord t))) := by
  have spread : runStmts [.spread100 samples] s = .next t := by
    rw [← h, runStmts, scriptEvents, List.flatMap_singleton]
  have stat : runStmts [.rd .sprStat] t = .next (t.setResponse (.word (sprStatWord t))) :=
    runStmts_rd t.response hline (by decide) (by decide)
  rw [transmitSignal, runStmts_cons, spread, andThen_next, stat, andThen_next, State.setResponse_response,
    Response.wordData_word, getLsbD_sprStatWord, if_pos rfl, txNext_start]

/-- The loop that never started sends nothing. -/
theorem sendAttempts_notReady (ceiling : Nat) (replies : List Reply) (s : State) :
    sendAttempts ceiling replies .notReady s = .next ⟨s, [], .notReady, []⟩ := by
  cases replies <;> rfl

end Sys2Proof.Machine
end

section
/-! The statements on literal words, completion, placing, reset, the hop report and the incomplete frame, from the facts
above. -/

namespace Sys2Proof.Machine

/-- Settles O52: eight bytes hold every 64-bit value, and four every generated frequency, which lies in the band
(`foldr_hopReport_of_lt`). -/
theorem hopReportCarriesTheFrequency : Obligations.HopReportCarriesTheFrequency := by
  refine ⟨fun f => ⟨length_hopReport 8 f, foldr_hopReport_of_lt f.isLt⟩, fun s t h => ⟨length_hopReport 4 _, ?_⟩⟩
  obtain ⟨-, -, hband, -⟩ := generatedFrequencyStaysInTheBand s t h
  exact foldr_hopReport_of_lt (by omega)

/-- Settles O55: SPREAD100 leaves IDX below 100, so the host reads FRAME_RDY = 0 (`transmitSignal_of_spread`) and the
loop does not start (`sendAttempts_notReady`). -/
theorem nothingIsSentOfAnIncompleteFrame : Obligations.NothingIsSentOfAnIncompleteFrame := by
  intro ceiling s samples replies hline hlen
  obtain ⟨t, ht, hidx, htline⟩ := exists_issueAll_spread100_idx hline hlen.le
  have hready : t.frameReady = false := decide_eq_false (hidx ▸ hlen.ne)
  have hend := transmitSignal_of_spread ceiling replies ht htline
  rw [hready, if_neg Bool.false_ne_true, sendAttempts_notReady] at hend
  exact ⟨_, hend, rfl, rfl, hidx⟩

/-- Settles O4: the seven words are the encodings of their instructions (`decode_eq_ok_iff`); the other two are refused
by UNIT and by bit 8. -/
theorem writtenCommandWordsDecode : Obligations.WrittenCommandWordsDecode := by
  refine ⟨decode_eq_ok_iff.2 ⟨rfl, encode_lcgnext.symm⟩, decode_eq_ok_iff.2 ⟨rfl, encode_frqnext.symm⟩,
    decode_eq_ok_iff.2 ⟨rfl, encode_tprog.symm⟩, decode_eq_ok_iff.2 ⟨rfl, (encode_stsig false).symm⟩,
    decode_eq_ok_iff.2 ⟨rfl, (encode_stsig true).symm⟩, decode_eq_ok_iff.2 ⟨rfl, encode_spstart.symm⟩,
    decode_eq_ok_iff.2 ⟨rfl, encode_sppush.symm⟩, decode_wrongUnit (by decide) (by decide), ?_⟩
  calc decode .sprCmd 0x00000122#32 = decodeSpreader 0x2#4 true := decode_sprCmd (by decide) (by decide)
    _ = .error .immediateSet := decodeSpreader_immediateSet (.inr rfl)

/-- Settles O9: a command completes and leaves the pending events (`exec_pending`); the other fields of the model's own
are as `CommandEffect` has them. -/
theorem everyCommandCompletes : Obligations.EveryCommandCompletes := by
  intro i s
  obtain ⟨t, ht, hpending, -⟩ := exec_pending i s []
  have heffect := exec_effect ht
  obtain ⟨hparams, -⟩ := heffect.params_pn
  exact ⟨t, ht, hpending, exec_keeps_response ht, hparams, heffect.resetLine, heffect.draws_le⟩

/-- Settles O10: the placed word is the next access, a write of the instruction's word to its port. -/
theorem placedInstructionRunsNext : Obligations.PlacedInstructionRunsNext := by
  intro i s
  rw [step_command (nextAccess_withFetchWord_encode i s), runCommand_of_ok (decode_encode_port i)]
  rfl

/-- Settles O38: after reset the LCG holds the seed, no pair is programmed and the buffer is empty; the parameters are in
range (`configParams_wf`). -/
theorem resetHasTheInvariant : Obligations.ResetHasTheInvariant where
  params := configParams_wf
  modbuf := Memory.wf_nil
  lcg := .inl rfl
  timPsc := Nat.two_pow_pos _
  timArr := Nat.two_pow_pos _
  timer := State.AtReset.timerConsistent resetStateHasTheListedValues

end Sys2Proof.Machine
end
